-- ==== Sys2Proof/Word.lean ====
section
/-! DEFINITION. The byte, the operation words of the spec's four encodings, and the input ports of one cycle. -/

namespace Sys2Proof

/-- A byte: 8 bits (00_scope R8). A character is such a value too (30_encoding R92). -/
abbrev Byte := BitVec 8

/-- One operation word, in one of the formats of 30_encoding (R90, R95, R96). The format of a word is given by where it
stands (a wire, a port group, the sequencer register, the debug port), never by its bits. Operands of `AW` or `SW`
bits are natural numbers; the decoder keeps as many bits as the port has wires. -/
inductive OpWord where
  /-- Format WIRE8 (R90): one byte on the wire. -/
  | wire8 (b : Byte)
  /-- Format PORT (R95), host write group: `buf_we`, `buf_addr`, `buf_wdata`. -/
  | bufPort (we : Bool) (addr : Nat) (wdata : Byte)
  /-- Format PORT (R95), submit group: `submit`, `submit_len`. -/
  | submitPort (strobe : Bool) (len : Nat)
  /-- Format PORT (R95), receive group: `rx_valid`, `rx_data`, `rx_last`. -/
  | rxPort (valid : Bool) (data : Byte) (last : Bool)
  /-- Format PORT (R95), the reset line `rst`. -/
  | rstPort (rst : Bool)
  /-- Format STATE (R96): the 4-bit code of the sequencer register (10_state R21). -/
  | seqState (code : BitVec 4)
  /-- Format EVT (R96): `evt_valid`, the 3-bit `evt_code` and `evt_arg` (60_exceptions R194). -/
  | event (valid : Bool) (code : BitVec 3) (arg : Nat)
  deriving DecidableEq, Repr

/-- The input ports of the block in one cycle (10_state R32), `clk` apart (one step is one rising edge). -/
structure Pins where
  /-- `rst`: synchronous reset, active high. -/
  rst : Bool
  /-- `tick`: 1 for one cycle once per time unit. -/
  tick : Bool
  /-- `chan_busy`: 1 = busy (even parity), 0 = free (odd parity). -/
  chanBusy : Bool
  /-- `rng`: the random word. -/
  rng : Nat
  /-- `buf_we`: the host writes one buffer byte. -/
  bufWe : Bool
  /-- `buf_addr`: the index written. -/
  bufAddr : Nat
  /-- `buf_wdata`: the byte written. -/
  bufWdata : Byte
  /-- `submit`: the host submits the message in the buffer. -/
  submit : Bool
  /-- `submit_len`: its number of symbols. -/
  submitLen : Nat
  /-- `tx_ready`: the transport can accept one byte. -/
  txReady : Bool
  /-- `rx_valid`: the transport presents one received byte. -/
  rxValid : Bool
  /-- `rx_data`: the received byte. -/
  rxData : Byte
  /-- `rx_last`: this byte is the last of its burst. -/
  rxLast : Bool
  deriving DecidableEq, Repr, Inhabited

/-- Every input 0: no reset, no tick, channel free, no strobe, transport not ready. -/
def Pins.quiet : Pins where
  rst := false
  tick := false
  chanBusy := false
  rng := 0
  bufWe := false
  bufAddr := 0
  bufWdata := 0
  submit := false
  submitLen := 0
  txReady := false
  rxValid := false
  rxData := 0
  rxLast := false

end Sys2Proof
end

