-- ==== Sys2Proof/Config.lean ====
section
/-! DEFINITION. The configuration parameters of 00_scope R5, and the free values of the model. -/

namespace Sys2Proof

/-- The operating mode of the endpoint, `MODE` (00_scope R5; 60_exceptions R190). There are no privilege levels. -/
inductive Mode where
  /-- `SENDER` (1): the MAC accepts SUBMIT, the decoder ignores received bytes. -/
  | sender
  /-- `RECEIVER` (0): the decoder processes received bytes, SUBMIT is ignored. -/
  | receiver
  deriving DecidableEq, Repr

/-- The configuration parameters (00_scope R5). The OPEN ones stay parameters: the model never fixes them. They are
constant; no step of the machine writes them (10_state R31, 70_reset_and_hazards R230). -/
structure Config where
  /-- `MODE`. -/
  mode : Mode
  /-- `JAM_BYTE`, OPEN (91_not_in_source N1). -/
  jamByte : Byte
  /-- `ESC_BYTE`, OPEN (N1). -/
  escByte : Byte
  /-- `MAX_TRIES`, 1 to 15; 10 for this hardware. -/
  maxTries : Nat
  /-- `COLLISION_WINDOW` in ticks, OPEN. -/
  collisionWindow : Nat
  /-- `JAM_SIGNAL_TIME` in ticks, OPEN; used only for `SLOT_TIME`. -/
  jamSignalTime : Nat
  /-- `POLL_INTERVAL` in ticks, at least 1; 1 for this hardware. -/
  pollInterval : Nat
  /-- `AW`, the address width of the message buffer, OPEN. -/
  aw : Nat
  /-- `TW`, the width of `timer`. -/
  tw : Nat
  /-- `TICK_PERIOD` in seconds, numerator, OPEN; no rule depends on it (U19). DESIGN CHOICE (log 19): a positive rational. -/
  tickNum : Nat
  /-- `TICK_PERIOD`, denominator. -/
  tickDen : Nat
  deriving DecidableEq, Repr

namespace Config

/-- `2^AW`, the number of entries of the buffer (00_scope R5). -/
def depth (c : Config) : Nat := 2 ^ c.aw

/-- `SW = MAX_TRIES + 1`, the width of a slot count and of the random word (00_scope R5). -/
def sw (c : Config) : Nat := c.maxTries + 1

/-- `RW = ceil(log2(MAX_TRIES + 1))`, the width of the retry counter (00_scope R5), for `MAX_TRIES >= 1`. -/
def rw (c : Config) : Nat := c.maxTries.log2 + 1

/-- The reference values of 00_scope R5 (`REF` of 95_test_vectors), in `SENDER` mode. They are the spec's own choice and
serve `State.reset` and the numeric test vectors only. DESIGN CHOICE (log 2), unsafe: no statement rests on them but
those that name the reset state. -/
def reference : Config where
  mode := .sender
  jamByte := 0x18
  escByte := 0x1B
  maxTries := 10
  collisionWindow := 20
  jamSignalTime := 4
  pollInterval := 1
  aw := 8
  tw := 16
  tickNum := 1
  tickDen := 1000

/-- Free value: the byte that buffer entry `index` holds after power-up number `seed` until a BUF_WRITE writes it
(20_memory R69: "an unspecified byte ... must not assume zero"). Safe (log 5). -/
opaque powerUpByte (seed index : Nat) : Byte

/-- Free value: what the outside drives on the input ports in cycle `cycle` of run `seed`, once the scheduled stimulus is
used up (00_scope R7, R12: the environment inputs are left unconstrained). Safe (log 1). -/
opaque freePins (seed cycle : Nat) : Pins

/-- Free value: `evt_arg` of EVT_SYMBOL_TX where the symbol does not fit its `SW` bits, which the spec does not state
(possible only for `MAX_TRIES < 7`). Safe (log 13). -/
opaque narrowEvtArg (symbol : Nat) : Nat

end Config

end Sys2Proof
end

