-- ==== Sys2Proof/Syntax.lean ====
section
/-! DEFINITION. The instructions: one constructor per row of spec/opcode_table.json. -/

namespace Sys2Proof

/-- The closed list of operations of the block (00_scope R9; 30_encoding R90 to R96). -/
inductive Instr where
  /-- JAM (R161): the wire byte that discards the held byte. -/
  | jam
  /-- ESC (R162): the wire byte that flushes the held byte. -/
  | esc
  /-- DATA (R163): any other wire byte. -/
  | data (b : Byte)
  /-- BUF_WRITE (R111): the host writes `wdata` to buffer entry `addr`. -/
  | bufWrite (addr : Nat) (wdata : Byte)
  /-- SUBMIT (R112): the host submits the first `len` symbols of the buffer. -/
  | submit (len : Nat)
  /-- RX_BYTE (R160): the transport presents `data`; `last` marks the end of a burst. -/
  | rxByte (data : Byte) (last : Bool)
  /-- RESET (R220). -/
  | reset
  /-- Sequencer state IDLE (R113). -/
  | idle
  /-- Sequencer state WAIT_FREE (R114). -/
  | waitFree
  /-- Sequencer state TRANSMITTED (R115). -/
  | transmitted
  /-- Sequencer state CHECK_COLLISION (R116). -/
  | checkCollision
  /-- Sequencer state SUCCESS (R121). -/
  | success
  /-- Sequencer state SEND_JAM (R117). -/
  | sendJam
  /-- Sequencer state BACKOFF_DRAW (R118, R119). -/
  | backoffDraw
  /-- Sequencer state BACKOFF (R120). -/
  | backoff
  /-- Sequencer state SEND_ESC (R122). -/
  | sendEsc
  /-- EVT_SYMBOL_TX (R194): a symbol was written; `arg` is the symbol. -/
  | evtSymbolTx (arg : Nat)
  /-- EVT_COLLISION (R194): a collision; `arg` is `retry_cnt` before the increment. -/
  | evtCollision (arg : Nat)
  /-- EVT_BACKOFF (R194): a draw; `arg` is the slot count drawn. -/
  | evtBackoff (arg : Nat)
  /-- EVT_DELIVERED (R194): a symbol done; `arg` is the number of collisions it met. -/
  | evtDelivered (arg : Nat)
  /-- EVT_DONE (R194): the message done; `arg` is 0. -/
  | evtDone (arg : Nat)
  /-- EVT_TRIES_EXPIRED (R194): the abort; `arg` is `retry_cnt`. -/
  | evtTriesExpired (arg : Nat)
  deriving DecidableEq, Repr

end Sys2Proof
end

