-- ==== Sys2Proof/WellFormed.lean ====
section
/-! DEFINITION. Which instructions are well formed under a configuration: the operands fit their ports and fields. -/

namespace Sys2Proof

/-- The operands are ones the instruction's encoding can carry: a DATA byte is no control byte (R91, R163), a buffer index
and a length have `AW` bits (R95), an event argument has `SW` bits and is the value its row of R194 names. -/
def Instr.wf (c : Config) : Instr → Bool
  | .jam => true
  | .esc => true
  | .data b => b != c.jamByte && b != c.escByte
  | .bufWrite addr _ => decide (addr < c.depth)
  | .submit len => decide (len < c.depth)
  | .rxByte _ _ => true
  | .reset => true
  | .idle => true
  | .waitFree => true
  | .transmitted => true
  | .checkCollision => true
  | .success => true
  | .sendJam => true
  | .backoffDraw => true
  | .backoff => true
  | .sendEsc => true
  | .evtSymbolTx arg => decide (arg < 2 ^ 8) && decide (arg < 2 ^ c.sw)
  | .evtCollision arg => decide (arg ≤ c.maxTries)
  | .evtBackoff arg => decide (arg ≤ 2 ^ c.maxTries)
  | .evtDelivered arg => decide (arg ≤ c.maxTries)
  | .evtDone arg => decide (arg = 0)
  | .evtTriesExpired arg => decide (arg = c.maxTries)

end Sys2Proof
end

