-- ==== Sys2Proof/Decode.lean ====
section
/-! DEFINITION. The decoder (total, rejecting by name), then the encoder, from the tables of 30_encoding, 10_state R21 and
60_exceptions R194. -/

namespace Sys2Proof

/-- Why a word is no operation. -/
inductive DecodeError where
  /-- The strobe of the port group is 0, so it carries no operation this cycle (30_encoding R95). -/
  | noStrobe
  /-- A sequencer code 9 to 15, which no rule produces (10_state R21; U7). -/
  | unusedStateCode (code : BitVec 4)
  /-- An event code 0 or 7, which is never produced (60_exceptions R194; U15). -/
  | unusedEventCode (code : BitVec 3)
  deriving DecidableEq, Repr

/-- What the decoder answers. -/
inductive Decoded where
  | op (i : Instr)
  | rejected (e : DecodeError)
  deriving DecidableEq, Repr

/-- The class of a wire byte, by the tests of 30_encoding R91 in their order: Jam, Escape, data. -/
def classify (c : Config) (b : Byte) : Instr :=
  if b = c.jamByte then .jam else if b = c.escByte then .esc else .data b

/-- The sequencer state a 4-bit code stands for (10_state R21). -/
def decodeStateCode (code : BitVec 4) : Decoded :=
  match code.toNat with
  | 0 => .op .idle
  | 1 => .op .waitFree
  | 2 => .op .transmitted
  | 3 => .op .checkCollision
  | 4 => .op .success
  | 5 => .op .sendJam
  | 6 => .op .backoffDraw
  | 7 => .op .backoff
  | 8 => .op .sendEsc
  | _ => .rejected (.unusedStateCode code)

/-- The event a 3-bit code stands for, with its argument (60_exceptions R194). -/
def decodeEventCode (code : BitVec 3) (arg : Nat) : Decoded :=
  match code.toNat with
  | 1 => .op (.evtSymbolTx arg)
  | 2 => .op (.evtCollision arg)
  | 3 => .op (.evtBackoff arg)
  | 4 => .op (.evtDelivered arg)
  | 5 => .op (.evtDone arg)
  | 6 => .op (.evtTriesExpired arg)
  | _ => .rejected (.unusedEventCode code)

/-- The decoder. A port operand keeps the `AW` (or `SW`) bits its port has wires for (10_state R32; log 21). -/
def decode (c : Config) : OpWord → Decoded
  | .wire8 b => .op (classify c b)
  | .bufPort we addr wdata => if we then .op (.bufWrite (addr % c.depth) wdata) else .rejected .noStrobe
  | .submitPort strobe len => if strobe then .op (.submit (len % c.depth)) else .rejected .noStrobe
  | .rxPort valid data last => if valid then .op (.rxByte data last) else .rejected .noStrobe
  | .rstPort rst => if rst then .op .reset else .rejected .noStrobe
  | .seqState code => decodeStateCode code
  | .event valid code arg => if valid then decodeEventCode code (arg % 2 ^ c.sw) else .rejected .noStrobe

/-- The encoder, from the same tables. -/
def encode (c : Config) : Instr → OpWord
  | .jam => .wire8 c.jamByte
  | .esc => .wire8 c.escByte
  | .data b => .wire8 b
  | .bufWrite addr wdata => .bufPort true addr wdata
  | .submit len => .submitPort true len
  | .rxByte data last => .rxPort true data last
  | .reset => .rstPort true
  | .idle => .seqState 0
  | .waitFree => .seqState 1
  | .transmitted => .seqState 2
  | .checkCollision => .seqState 3
  | .success => .seqState 4
  | .sendJam => .seqState 5
  | .backoffDraw => .seqState 6
  | .backoff => .seqState 7
  | .sendEsc => .seqState 8
  | .evtSymbolTx arg => .event true 1 arg
  | .evtCollision arg => .event true 2 arg
  | .evtBackoff arg => .event true 3 arg
  | .evtDelivered arg => .event true 4 arg
  | .evtDone arg => .event true 5 arg
  | .evtTriesExpired arg => .event true 6 arg

/-- The word's operands lie within the wires of their ports. -/
def OpWord.fits (c : Config) : OpWord → Bool
  | .bufPort _ addr _ => decide (addr < c.depth)
  | .submitPort _ len => decide (len < c.depth)
  | .event _ _ arg => decide (arg < 2 ^ c.sw)
  | .wire8 _ => true
  | .rxPort _ _ _ => true
  | .rstPort _ => true
  | .seqState _ => true

/-- The word that spec/opcode_table.json's numbering gives for `nbits` bits of value `w`. The number carries no format and
the formats share their small numbers; DESIGN CHOICE (log 10): 3 bits are an event code (with `evt_arg`, to which the
table gives no bits, 0), 4 bits a sequencer code, 8 bits a sequencer code where `w` is one of the nine and a wire byte
otherwise. -/
def tableWord (nbits w : Nat) : Option OpWord :=
  if nbits = 3 then some (.event true (BitVec.ofNat 3 w) 0)
  else if nbits = 4 then some (.seqState (BitVec.ofNat 4 w))
  else if nbits = 8 then
    if w < 9 then some (.seqState (BitVec.ofNat 4 w)) else some (.wire8 (BitVec.ofNat 8 w))
  else none

/-- The instruction the decoder reads from a word numbered as the opcode table numbers it, with the reference values of
`JAM_BYTE` and `ESC_BYTE` (00_scope R5). -/
def decodeTableWord (nbits w : Nat) : Option Instr :=
  match tableWord nbits w with
  | none => none
  | some word =>
    match decode Config.reference word with
    | .op i => some i
    | .rejected _ => none

end Sys2Proof
end

