-- ==== Sys2Proof/Machine/State.lean ====
section
/-! DEFINITION. The state of the block, its faults and refusals, and the state after reset. -/

namespace Sys2Proof.Machine

/-- `mac_state` (10_state R21): nine values and no others (U7). -/
inductive MacState where
  | idle
  | waitFree
  | transmitted
  | checkCollision
  | success
  | sendJam
  | backoffDraw
  | backoff
  | sendEsc
  deriving DecidableEq, Repr

/-- The six debug events (60_exceptions R194). -/
inductive EvtKind where
  | symbolTx
  | collision
  | backoff
  | delivered
  | done
  | triesExpired
  deriving DecidableEq, Repr

/-- One debug event: `evt_code` by name and `evt_arg` (R194). -/
structure Event where
  kind : EvtKind
  arg : Nat
  deriving DecidableEq, Repr

/-- When the channel was sampled (10_state R33). -/
inductive SampleKind where
  /-- In WAIT_FREE. -/
  | pre
  /-- In CHECK_COLLISION. -/
  | post
  deriving DecidableEq, Repr

/-- The MAC state (10_state R21 to R27). The numeric registers are exact natural numbers, as the spec's arithmetic is
(00_scope R8, 40_mac R124); that each fits its width is an invariant (log 8). -/
structure Mac where
  /-- `mac_state`. -/
  state : MacState
  /-- `tx_len`, `AW` bits. -/
  txLen : Nat
  /-- `tx_idx`, `AW` bits. -/
  txIdx : Nat
  /-- `retry_cnt`, `RW` bits. -/
  retryCnt : Nat
  /-- `slot_cnt`, `SW` bits. -/
  slotCnt : Nat
  /-- `timer`, `TW` bits. -/
  timer : Nat
  /-- `txbuf`: the entries written since power-up, indices strictly rising. -/
  txbuf : List Host.Cell
  /-- `st_done`. -/
  stDone : Bool
  /-- `st_err`. -/
  stErr : Bool
  /-- `err_idx`, `AW` bits. -/
  errIdx : Nat
  deriving DecidableEq, Repr

/-- The pulse outputs of one step (10_state R32). A data line whose valid line is 0 has no value here (U11; log 25). -/
structure Outputs where
  /-- `tx_wr` and `tx_data`. -/
  tx : Option Byte
  /-- `dec_valid` and `dec_data`. -/
  dec : Option Byte
  /-- `dec_notify`. -/
  decNotify : Bool
  /-- `evt_valid`, `evt_code` and `evt_arg`. -/
  evt : Option Event
  /-- `irq_done`. -/
  irqDone : Bool
  /-- `irq_err`. -/
  irqErr : Bool
  deriving DecidableEq, Repr

/-- The traces of a run (10_state R33), oldest first. Not state of the block: the model records them (log 7). -/
structure Traces where
  /-- `TXTRACE`. -/
  tx : List Byte
  /-- `SAMPLES`: kind, and whether the channel was busy. -/
  samples : List (SampleKind × Bool)
  /-- `DRAWS`: `k` and the slot count. -/
  draws : List (Nat × Nat)
  /-- `DECOUT`. -/
  decOut : List Byte
  /-- The characters emitted since the last notification. -/
  batch : List Byte
  /-- `BATCHES`. -/
  batches : List (List Byte)
  /-- `EVTTRACE`. -/
  evts : List Event
  deriving DecidableEq, Repr

/-- The state of the machine. `mac` and `lookahead` are the spec's state (10_state R20); `cfg` holds its parameters
(00_scope R5); the rest is the model's own (logs 1, 7, 24). -/
structure State where
  /-- The configuration, which no step writes (log 2). -/
  cfg : Config
  /-- The MAC's registers. -/
  mac : Mac
  /-- The decoder's `have_pending` and `pending` (10_state R28; U12; log 6). -/
  lookahead : Option Byte
  /-- What the outside drives on the input ports in the coming cycle. -/
  pins : Pins
  /-- The input vectors of the cycles after that; when it runs out, the free value `Config.freePins`. -/
  stim : List Pins
  /-- How many cycles have passed. -/
  cycle : Nat
  /-- Which power-up and environment this run is. -/
  seed : Nat
  /-- The pulse outputs of the cycle just taken. -/
  out : Outputs
  /-- The traces of the run. -/
  tr : Traces
  deriving DecidableEq, Repr

/-- Where a step stops with a fault. The block has none of its own (60_exceptions R180); both are for operands that no
port can carry, so no cycle of the machine raises them (log 16). -/
inductive Fault where
  /-- Raised by an access to `txbuf` at an index of more than `AW` bits (20_memory R61). Safe. -/
  | outsideBuffer (index : Nat)
  /-- Raised by an accepted SUBMIT of a length of more than `AW` bits (20_memory R63). Safe. -/
  | messageTooLong (len : Nat)
  deriving DecidableEq, Repr

/-- Where a step is refused. -/
inductive Refusal where
  /-- Raised by an arm of `exec` whose instruction has no meaning yet. Safe. -/
  | notModelled (mnemonic : String)
  /-- Raised by `step` under a configuration that breaks a constraint of 00_scope R5 (U17: "refuse"). Safe (log 15). -/
  | illegalConfiguration
  /-- Raised by `step` on a word of the cycle that the decoder rejects; no state presents one. Safe. -/
  | undecodable (e : DecodeError)
  deriving DecidableEq, Repr

/-- The answer of an instruction or a step. -/
abbrev Result := Host.Outcome State Fault Refusal

/-- All pulse outputs 0 (10_state R35). -/
def Outputs.quiet : Outputs where
  tx := none
  dec := none
  decNotify := false
  evt := none
  irqDone := false
  irqErr := false

/-- The traces of a run that has not begun. -/
def Traces.empty : Traces where
  tx := []
  samples := []
  draws := []
  decOut := []
  batch := []
  batches := []
  evts := []

/-- The MAC's registers after a reset (10_state R35); `txbuf` is not reset, so its content is an argument. -/
def Mac.afterReset (txbuf : List Host.Cell) : Mac where
  state := .idle
  txLen := 0
  txIdx := 0
  retryCnt := 0
  slotCnt := 0
  timer := 0
  txbuf := txbuf
  stDone := false
  stErr := false
  errIdx := 0

/-- The state right after power-up and reset, under configuration `c` (10_state R35): no buffer entry written, nothing
pending. -/
def State.resetWith (c : Config) : State where
  cfg := c
  mac := Mac.afterReset []
  lookahead := none
  pins := Pins.quiet
  stim := []
  cycle := 0
  seed := 0
  out := Outputs.quiet
  tr := Traces.empty

/-- The state after reset, under the spec's reference parameter values (log 2). -/
def State.reset : State := State.resetWith Config.reference

end Sys2Proof.Machine
end

