-- ==== Sys2Proof/Machine/Timing.lean ====
section
/-! DEFINITION. The derived timing constants and the constraints on the parameters (00_scope R5, 40_mac R123). -/

namespace Sys2Proof

/-- `SLOT_TIME = floor((5 * S + 2) / 4)` with `S = COLLISION_WINDOW + JAM_SIGNAL_TIME`, a tie rounded up (40_mac R123, which
carries decision D14; log 22). -/
def Config.slotTime (c : Config) : Nat := (5 * (c.collisionWindow + c.jamSignalTime) + 2) / 4

/-- The longest backoff in ticks, `2^MAX_TRIES * SLOT_TIME` (10_state R25). -/
def Config.longestBackoff (c : Config) : Nat := 2 ^ c.maxTries * c.slotTime

/-- The constraints of 00_scope R5 on the parameters. -/
def Config.legal (c : Config) : Bool :=
  c.jamByte != c.escByte
    && decide (1 ≤ c.maxTries) && decide (c.maxTries ≤ 15)
    && decide (1 ≤ c.pollInterval) && decide (1 ≤ c.aw)
    && decide (c.collisionWindow < 2 ^ c.tw) && decide (c.pollInterval < 2 ^ c.tw)
    && decide (c.longestBackoff < 2 ^ c.tw)
    && decide (0 < c.tickNum) && decide (0 < c.tickDen)

end Sys2Proof
end

