-- ==== Sys2Proof/Machine/Operands.lean ====
section
/-! DEFINITION. The operand forms: the symbol's index, the random word's slice, the event argument. -/

namespace Sys2Proof.Machine

/-- The effective address of the symbol fetch: `tx_idx`, unmodified (40_mac R138). -/
def symbolIndex (s : State) : Nat := s.mac.txIdx

/-- `k = min(retry_cnt, MAX_TRIES)` (40_mac R118; 90_conflicts C8: the `min` is kept as written). -/
def drawExponent (s : State) : Nat := min s.mac.retryCnt s.cfg.maxTries

/-- `cand = rng[k:0]`, the low `k + 1` bits of the random word (40_mac R119). -/
def drawCandidate (s : State) : Nat := s.pins.rng % 2 ^ (drawExponent s + 1)

/-- A symbol zero-extended to the `SW` bits of `evt_arg` (60_exceptions R194); a free value where `SW` bits cannot hold it,
which the spec does not state (log 13). -/
def symbolArg (c : Config) (b : Byte) : Nat :=
  if b.toNat < 2 ^ c.sw then b.toNat else Config.narrowEvtArg b.toNat % 2 ^ c.sw

end Sys2Proof.Machine
end

