-- ==== Sys2Proof/Machine/Flags.lean ====
section
/-! DEFINITION. The status flags (10_state R27) and the level outputs read from the state (10_state R32, 40_mac R125). -/

namespace Sys2Proof.Machine

/-- An accepted SUBMIT clears `st_done` and `st_err`; `err_idx` keeps its value (10_state R27). -/
def clearReports (s : State) : State := { s with mac.stDone := false, mac.stErr := false }

/-- `st_done <- 1`, with the pulse `irq_done` in the same step (40_mac R122). -/
def reportDone (s : State) : State := { s with mac.stDone := true, out.irqDone := true }

/-- `st_err <- 1`, `err_idx <- i`, with the pulse `irq_err` in the same step (60_exceptions R187). -/
def reportError (i : Nat) (s : State) : State :=
  { s with mac.stErr := true, mac.errIdx := i, out.irqErr := true }

/-- Output `err_code`: 1 (`TRIES_EXPIRED`) while `st_err = 1`, else 0 (60_exceptions R181). -/
def errCode (s : State) : BitVec 2 := if s.mac.stErr then 1 else 0

/-- Output `mac_busy` (40_mac R125). -/
def macBusy (s : State) : Bool := s.mac.state != .idle

/-- Output `submit_ready` (40_mac R125). -/
def submitReady (s : State) : Bool := s.mac.state == .idle && s.cfg.mode == .sender

/-- Register view `have_pending` (10_state R28). -/
def havePending (s : State) : Bool := s.lookahead.isSome

/-- Output `evt_code`: the event's code, 0 for none (60_exceptions R194). -/
def evtCode (o : Outputs) : BitVec 3 :=
  match o.evt with
  | none => 0
  | some e =>
    match e.kind with
    | .symbolTx => 1
    | .collision => 2
    | .backoff => 3
    | .delivered => 4
    | .done => 5
    | .triesExpired => 6

/-- The 4-bit code of a sequencer state (10_state R21). -/
def MacState.code : MacState → BitVec 4
  | .idle => 0
  | .waitFree => 1
  | .transmitted => 2
  | .checkCollision => 3
  | .success => 4
  | .sendJam => 5
  | .backoffDraw => 6
  | .backoff => 7
  | .sendEsc => 8

end Sys2Proof.Machine
end

