-- ==== Sys2Proof/Machine/Ops.lean ====
section
/-! DEFINITION. The named operations over the buffer, the registers, the ports and the traces (00_scope R8), and the taking
of the exception `TriesExpired` (60_exceptions R187). -/

namespace Sys2Proof.Machine

/-- Goes on with `f` from the next state, and stops where `r` stops. -/
def andThen (r : Result) (f : State → Result) : Result :=
  match r with
  | .next s => f s
  | .fault e => .fault e
  | .refused e => .refused e

/-! The buffer as a list of written entries, indices strictly rising. -/

/-- Every entry of `m` stands at an index above `lo`, in rising order. -/
def Memory.risingFrom (lo : Nat) : List Host.Cell → Bool
  | [] => true
  | e :: m => decide (lo < e.1) && Memory.risingFrom e.1 m

/-- The canonical form: indices strictly rising. An unlisted entry has no value in the list, so no entry equals one. -/
def Memory.wf : List Host.Cell → Bool
  | [] => true
  | e :: m => Memory.risingFrom e.1 m

/-- The byte written at index `a`, if one was. -/
def Memory.read : List Host.Cell → Nat → Option Byte
  | [], _ => none
  | e :: m, a => if e.1 = a then some e.2 else Memory.read m a

/-- `m` with the byte `v` at index `a`, in the canonical form. -/
def Memory.write : List Host.Cell → Nat → Byte → List Host.Cell
  | [], a, v => [(a, v)]
  | e :: m, a, v =>
    if a < e.1 then (a, v) :: e :: m
    else if a = e.1 then (a, v) :: m
    else e :: Memory.write m a v

/-- What an index that no BUF_WRITE has written reads as: a free byte (20_memory R69; log 5). -/
def unwrittenByte (s : State) (a : Nat) : Byte := Config.powerUpByte s.seed a

/-- `MemRead(a, 1)` (20_memory R61): the byte of the buffer at index `a`. It has no side effect. -/
def memRead (s : State) (a : Nat) : Except Fault Byte :=
  if a < s.cfg.depth then .ok ((Memory.read s.mac.txbuf a).getD (unwrittenByte s a))
  else .error (.outsideBuffer a)

/-- `MemWrite(a, 1, v)` (20_memory R61). -/
def memWrite (s : State) (a : Nat) (v : Byte) : Result :=
  if a < s.cfg.depth then .next { s with mac.txbuf := Memory.write s.mac.txbuf a v }
  else .fault (.outsideBuffer a)

/-! Registers. -/

/-- `mac_state <- m`: the control transfer of the MAC (00_scope R8). -/
def goTo (m : MacState) (s : State) : State := { s with mac.state := m }

/-- `timer <- n`: starts a timed wait (10_state R25). -/
def loadTimer (n : Nat) (s : State) : State := { s with mac.timer := n }

/-- `retry_cnt <- n`. -/
def setRetry (n : Nat) (s : State) : State := { s with mac.retryCnt := n }

/-- `tx_idx <- n`. -/
def setIndex (n : Nat) (s : State) : State := { s with mac.txIdx := n }

/-- One step of a timed wait with `timer != 0`: the timer falls by 1 if `tick = 1` (40_mac R128). -/
def countTick (s : State) : State :=
  if s.pins.tick then { s with mac.timer := s.mac.timer - 1 } else s

/-! Ports and traces. -/

/-- `Sample()`: the value of `chan_busy`, appended to `SAMPLES` (00_scope R8). -/
def sample (kind : SampleKind) (s : State) : State :=
  { s with tr.samples := s.tr.samples ++ [(kind, s.pins.chanBusy)] }

/-- `TxByte(b)`: the MAC drives `tx_wr = 1` and `tx_data = b`; `b` is appended to `TXTRACE` (00_scope R8). -/
def txByte (b : Byte) (s : State) : State :=
  { s with out.tx := some b, tr.tx := s.tr.tx ++ [b] }

/-- `Emit(c)`: the decoder drives `dec_valid = 1` and `dec_data = c`; `c` is appended to `DECOUT` (00_scope R8). -/
def emit (c : Byte) (s : State) : State :=
  { s with out.dec := some c, tr.decOut := s.tr.decOut ++ [c], tr.batch := s.tr.batch ++ [c] }

/-- `Notify()`: `dec_notify = 1`; `BATCHES` gains the characters emitted since the last notification (41_decoder R164). -/
def notify (s : State) : State :=
  { s with out.decNotify := true, tr.batches := s.tr.batches ++ [s.tr.batch], tr.batch := [] }

/-- `Event(code, arg)`: the MAC drives the debug port (60_exceptions R194). -/
def driveEvent (kind : EvtKind) (arg : Nat) (s : State) : State :=
  { s with out.evt := some ⟨kind, arg⟩, tr.evts := s.tr.evts ++ [⟨kind, arg⟩] }

/-- One accepted draw appended to `DRAWS` (10_state R33). -/
def recordDraw (k d : Nat) (s : State) : State :=
  { s with tr.draws := s.tr.draws ++ [(k, d)] }

/-! The decoder's lookahead. -/

/-- `if have_pending = 1: Emit(pending)` (41_decoder R162, R163). -/
def flushPending (s : State) : State :=
  match s.lookahead with
  | none => s
  | some c => emit c s

/-- `have_pending <- 0`. -/
def clearLookahead (s : State) : State := { s with lookahead := none }

/-- `pending <- b; have_pending <- 1`. -/
def holdByte (b : Byte) (s : State) : State := { s with lookahead := some b }

/-! The exception. -/

/-- `raise TriesExpired(i)` (60_exceptions R187): `st_err <- 1`, `err_idx <- i`, `mac_state <- IDLE`, `irq_err = 1`, and the
event with `retry_cnt`. Nothing else is saved and there is no return operation (R188): the host leaves the error by
the next accepted SUBMIT (`acceptSubmit`) or by reset. -/
def raiseTriesExpired (i : Nat) (s : State) : State :=
  driveEvent .triesExpired s.mac.retryCnt (goTo .idle (reportError i s))

/-- An accepted SUBMIT (40_mac R112), which is also how the host leaves the error state (60_exceptions R188). -/
def acceptSubmit (len : Nat) (s : State) : State :=
  goTo (if len = 0 then .sendEsc else .waitFree)
    (clearReports { s with mac.txLen := len, mac.txIdx := 0, mac.retryCnt := 0, mac.timer := 0 })

/-- Every state element takes its reset value and the pulse outputs are 0 (70_reset_and_hazards R220, 10_state R35).
`txbuf` is not reset; the parameters, the inputs and the record of the run stay (log 4). -/
def applyReset (s : State) : State :=
  { s with mac := Mac.afterReset s.mac.txbuf, lookahead := none, out := Outputs.quiet }

end Sys2Proof.Machine
end

