-- ==== Sys2Proof/Machine/Wire.lean ====
section
/-! DEFINITION. The decoder's rules, one per class of wire byte (41_decoder R161 to R163). The gate by `MODE` stands in
RX_BYTE (R160, R165; log 12). -/

namespace Sys2Proof.Machine

/-- JAM (41_decoder R161): the held byte is discarded, not emitted. -/
def execJam (s : State) : Result := .next (clearLookahead s)

/-- ESC (41_decoder R162): the held byte, if any, is emitted; nothing is held afterwards. -/
def execEsc (s : State) : Result := .next (clearLookahead (flushPending s))

/-- DATA (41_decoder R163): the held byte, if any, is emitted; the new byte is held. -/
def execData (b : Byte) (s : State) : Result := .next (holdByte b (flushPending s))

end Sys2Proof.Machine
end

