-- ==== Sys2Proof/Machine/Ports.lean ====
section
/-! DEFINITION. The port operations (30_encoding R95). One that is not accepted has no effect at all. -/

namespace Sys2Proof.Machine

/-- BUF_WRITE (40_mac R111): accepted in IDLE, in either mode. -/
def execBufWrite (addr : Nat) (wdata : Byte) (s : State) : Result :=
  if s.mac.state = .idle then memWrite s addr wdata else .next s

/-- SUBMIT (40_mac R112): accepted in IDLE in SENDER mode. -/
def execSubmit (len : Nat) (s : State) : Result :=
  if s.mac.state = .idle ∧ s.cfg.mode = .sender then
    if len < s.cfg.depth then .next (acceptSubmit len s) else .fault (.messageTooLong len)
  else .next s

/-- The byte's own rule, by the tests of 41_decoder R160 in their order: Jam, Escape, data. -/
def receiveByte (b : Byte) (s : State) : Result :=
  if b = s.cfg.jamByte then execJam s
  else if b = s.cfg.escByte then execEsc s
  else execData b s

/-- The notification after the byte's rule, if the byte is the last of its burst (41_decoder R164). -/
def notifyIfLast (last : Bool) (s : State) : Result := .next (if last then notify s else s)

/-- RX_BYTE (41_decoder R160): processed in RECEIVER mode, ignored in SENDER mode (R165). -/
def execRxByte (data : Byte) (last : Bool) (s : State) : Result :=
  if s.cfg.mode = .receiver then andThen (receiveByte data s) (notifyIfLast last) else .next s

/-- RESET (70_reset_and_hazards R220): always accepted. -/
def execReset (s : State) : Result := .next (applyReset s)

end Sys2Proof.Machine
end

