-- ==== Sys2Proof/Machine/Events.lean ====
section
/-! DEFINITION. The debug events (60_exceptions R194): each drives the debug port with its code and argument for one step.
A sequencer rule that performs `Event` runs the operation of that event (40_mac R136). -/

namespace Sys2Proof.Machine

/-- EVT_SYMBOL_TX, code 1: the symbol. -/
def execEvtSymbolTx (arg : Nat) (s : State) : Result := .next (driveEvent .symbolTx arg s)

/-- EVT_COLLISION, code 2: `retry_cnt` before the increment. -/
def execEvtCollision (arg : Nat) (s : State) : Result := .next (driveEvent .collision arg s)

/-- EVT_BACKOFF, code 3: the slot count drawn. -/
def execEvtBackoff (arg : Nat) (s : State) : Result := .next (driveEvent .backoff arg s)

/-- EVT_DELIVERED, code 4: the number of collisions the symbol met. -/
def execEvtDelivered (arg : Nat) (s : State) : Result := .next (driveEvent .delivered arg s)

/-- EVT_DONE, code 5: 0. -/
def execEvtDone (arg : Nat) (s : State) : Result := .next (driveEvent .done arg s)

/-- EVT_TRIES_EXPIRED, code 6: `retry_cnt`. -/
def execEvtTriesExpired (arg : Nat) (s : State) : Result := .next (driveEvent .triesExpired arg s)

end Sys2Proof.Machine
end

