-- ==== Sys2Proof/Machine/Sequencer.lean ====
section
/-! DEFINITION. The MAC's sequencer, one rule per state (40_mac R113 to R122). All assignments of a rule read the state at
the start of the step. -/

namespace Sys2Proof.Machine

/-- IDLE (40_mac R113): nothing happens but the port operations. -/
def execIdle (s : State) : Result := .next s

/-- WAIT_FREE (40_mac R114): carrier sense and transmission of the symbol. -/
def execWaitFree (s : State) : Result :=
  if s.mac.timer ≠ 0 then .next (countTick s)
  else if s.pins.chanBusy = false ∧ s.pins.txReady = true then
    match memRead s (symbolIndex s) with
    | .ok b =>
      execEvtSymbolTx (symbolArg s.cfg b)
        (goTo .transmitted (loadTimer s.cfg.collisionWindow (txByte b (sample .pre s))))
    | .error f => .fault f
  else .next (loadTimer s.cfg.pollInterval (sample .pre s))

/-- TRANSMITTED (40_mac R115): the collision window. -/
def execTransmitted (s : State) : Result :=
  if s.mac.timer ≠ 0 then .next (countTick s) else .next (goTo .checkCollision s)

/-- CHECK_COLLISION (40_mac R116): the channel is sampled again. -/
def execCheckCollision (s : State) : Result :=
  if s.pins.chanBusy then execEvtCollision s.mac.retryCnt (goTo .sendJam (sample .post s))
  else .next (goTo .success (sample .post s))

/-- SUCCESS (40_mac R121): the symbol is done; on to the next one or to the Escape. -/
def execSuccess (s : State) : Result :=
  execEvtDelivered s.mac.retryCnt
    (goTo (if s.mac.txIdx + 1 = s.mac.txLen then .sendEsc else .waitFree)
      (setIndex (s.mac.txIdx + 1) (setRetry 0 s)))

/-- SEND_JAM (40_mac R117): the Jam is written, then the retry check, tested before the increment (90_conflicts C2). -/
def execSendJam (s : State) : Result :=
  if s.pins.txReady then
    if s.mac.retryCnt = s.cfg.maxTries then
      .next (raiseTriesExpired s.mac.txIdx (txByte s.cfg.jamByte s))
    else
      .next (goTo .backoffDraw (setRetry (s.mac.retryCnt + 1) (txByte s.cfg.jamByte s)))
  else .next s

/-- BACKOFF_DRAW (40_mac R118, realised by the rejection of R119; log 9). -/
def execBackoffDraw (s : State) : Result :=
  if drawCandidate s ≤ 2 ^ drawExponent s then
    execEvtBackoff (drawCandidate s)
      (goTo .backoff
        (recordDraw (drawExponent s) (drawCandidate s)
          (loadTimer (drawCandidate s * s.cfg.slotTime) { s with mac.slotCnt := drawCandidate s })))
  else .next s

/-- BACKOFF (40_mac R120): the backoff sleep; then the same symbol is tried again. -/
def execBackoff (s : State) : Result :=
  if s.mac.timer ≠ 0 then .next (countTick s) else .next (goTo .waitFree s)

/-- SEND_ESC (40_mac R122): the Escape is written, unconditionally but for `tx_ready`. -/
def execSendEsc (s : State) : Result :=
  if s.pins.txReady then
    execEvtDone 0 (goTo .idle (reportDone (txByte s.cfg.escByte s)))
  else .next s

end Sys2Proof.Machine
end

