-- ==== Sys2Proof/Machine/Dispatch.lean ====
section
/-! DEFINITION. The dispatch: one direct call of a meaning per constructor. -/

namespace Sys2Proof.Machine

/-- What one instruction does to a state. -/
def exec (i : Instr) (s : State) : Host.Outcome State Fault Refusal :=
  match i with
  -- WIRE8
  | .jam => Sys2Proof.Machine.execJam s
  | .esc => Sys2Proof.Machine.execEsc s
  | .data b => Sys2Proof.Machine.execData b s
  -- PORT
  | .bufWrite addr wdata => Sys2Proof.Machine.execBufWrite addr wdata s
  | .submit len => Sys2Proof.Machine.execSubmit len s
  | .rxByte data last => Sys2Proof.Machine.execRxByte data last s
  | .reset => Sys2Proof.Machine.execReset s
  -- STATE
  | .idle => Sys2Proof.Machine.execIdle s
  | .waitFree => Sys2Proof.Machine.execWaitFree s
  | .transmitted => Sys2Proof.Machine.execTransmitted s
  | .checkCollision => Sys2Proof.Machine.execCheckCollision s
  | .success => Sys2Proof.Machine.execSuccess s
  | .sendJam => Sys2Proof.Machine.execSendJam s
  | .backoffDraw => Sys2Proof.Machine.execBackoffDraw s
  | .backoff => Sys2Proof.Machine.execBackoff s
  | .sendEsc => Sys2Proof.Machine.execSendEsc s
  -- EVT
  | .evtSymbolTx arg => Sys2Proof.Machine.execEvtSymbolTx arg s
  | .evtCollision arg => Sys2Proof.Machine.execEvtCollision arg s
  | .evtBackoff arg => Sys2Proof.Machine.execEvtBackoff arg s
  | .evtDelivered arg => Sys2Proof.Machine.execEvtDelivered arg s
  | .evtDone arg => Sys2Proof.Machine.execEvtDone arg s
  | .evtTriesExpired arg => Sys2Proof.Machine.execEvtTriesExpired arg s

end Sys2Proof.Machine
end

