-- ==== Sys2Proof/Machine/Cycle.lean ====
section
/-! DEFINITION. One clock cycle: which operation words it presents, how they run, and how the inputs advance. -/

namespace Sys2Proof.Machine

/-- The operation words of the coming cycle (30_encoding R96). RESET overrides everything. Otherwise the host's two port
groups, the receive group and the sequencer register, in this order: the port operations are accepted on the state at
the start of the step, the sequencer's rule is that of `mac_state` at its start, and the decoder shares nothing with
either, so running them one after the other is their synchronous update (log 3). -/
def cycleWords (s : State) : List OpWord :=
  if s.pins.rst then [.rstPort true]
  else
    [.bufPort s.pins.bufWe s.pins.bufAddr s.pins.bufWdata,
     .submitPort s.pins.submit s.pins.submitLen,
     .rxPort s.pins.rxValid s.pins.rxData s.pins.rxLast,
     .seqState s.mac.state.code]

/-- Runs one word: the instruction it decodes to. A port group whose strobe is 0 carries none. -/
def runWord (w : OpWord) (s : State) : Result :=
  match decode s.cfg w with
  | .op i => exec i s
  | .rejected .noStrobe => .next s
  | .rejected e => .refused (.undecodable e)

/-- Runs words one after the other, stopping at the first stop. -/
def runWords : List OpWord → State → Result
  | [], s => .next s
  | w :: ws, s => andThen (runWord w s) (runWords ws)

/-- At the start of a cycle the pulse outputs are 0 (10_state R32). -/
def beginCycle (s : State) : State := { s with out := Outputs.quiet }

/-- The inputs of the cycle after this one: the scheduled vector, or a free value (log 1). -/
def nextPins (s : State) : Pins :=
  match s.stim with
  | p :: _ => p
  | [] => Config.freePins s.seed s.cycle

/-- At the end of a cycle the inputs of the next one stand on the ports. -/
def endCycle (s : State) : State :=
  { s with pins := nextPins s, stim := s.stim.tail, cycle := s.cycle + 1 }

/-- A whole cycle. -/
def runCycle (s : State) : Result :=
  andThen (runWords (cycleWords s) (beginCycle s)) fun t => .next (endCycle t)

/-- A state that presents the word `w`, and no other operation, in the next cycle. A sequencer code is put in `mac_state`;
a wire byte comes in at the receive port of a RECEIVER whose sequencer idles; an event is presented by the sequencer
state and inputs that raise it (log 11). -/
def placeWord (w : OpWord) (s : State) : State :=
  match decode s.cfg w with
  | .rejected _ => s
  | .op .jam => rx s.cfg.jamByte
  | .op .esc => rx s.cfg.escByte
  | .op (.data b) => rx b
  | .op (.bufWrite addr wdata) =>
    { s with mac.state := .idle, pins := { quiet with bufWe := true, bufAddr := addr, bufWdata := wdata } }
  | .op (.submit len) =>
    { s with cfg.mode := .sender, mac.state := .idle, pins := { quiet with submit := true, submitLen := len } }
  | .op (.rxByte data last) =>
    { s with cfg.mode := .receiver, mac.state := .idle,
             pins := { quiet with rxValid := true, rxData := data, rxLast := last } }
  | .op .reset => { s with pins := { quiet with rst := true } }
  | .op .idle => seq .idle
  | .op .waitFree => seq .waitFree
  | .op .transmitted => seq .transmitted
  | .op .checkCollision => seq .checkCollision
  | .op .success => seq .success
  | .op .sendJam => seq .sendJam
  | .op .backoffDraw => seq .backoffDraw
  | .op .backoff => seq .backoff
  | .op .sendEsc => seq .sendEsc
  | .op (.evtSymbolTx _) =>
    { s with mac.state := .waitFree, mac.timer := 0, pins := { quiet with chanBusy := false, txReady := true } }
  | .op (.evtCollision _) => { s with mac.state := .checkCollision, pins := { quiet with chanBusy := true } }
  | .op (.evtBackoff _) => { s with mac.state := .backoffDraw, pins := { quiet with rng := 0 } }
  | .op (.evtDelivered _) => seq .success
  | .op (.evtDone _) => { s with mac.state := .sendEsc, pins := { quiet with txReady := true } }
  | .op (.evtTriesExpired _) =>
    { s with mac.state := .sendJam, mac.retryCnt := s.cfg.maxTries, pins := { quiet with txReady := true } }
where
  /-- The inputs of the cycle with every strobe 0. -/
  quiet : Pins := { s.pins with rst := false, bufWe := false, submit := false, rxValid := false }
  /-- The sequencer in state `m`, no port operation. -/
  seq (m : MacState) : State := { s with mac.state := m, pins := quiet }
  /-- The byte `b` received, in the middle of a burst. -/
  rx (b : Byte) : State :=
    { s with cfg.mode := .receiver, mac.state := .idle,
             pins := { quiet with rxValid := true, rxData := b, rxLast := false } }

end Sys2Proof.Machine
end

