-- ==== Sys2Proof/Machine/Step.lean ====
section
/-! DEFINITION. The step of the machine: one clock cycle. -/

namespace Sys2Proof.Machine

/-- One clock cycle (00_scope R6). A configuration that breaks a constraint of 00_scope R5 is refused (U17; log 15). -/
def step (s : State) : Host.Outcome State Fault Refusal :=
  if s.cfg.legal then runCycle s else .refused .illegalConfiguration

/-- `s` with the instruction whose table word is `w` presented in the next cycle. The block has no instruction memory
(20_memory R60): its program counter is `mac_state`, its port operations come from the pins (log 11). -/
def State.withFetchWord (s : State) (nbits w : Nat) : State :=
  match tableWord nbits w with
  | none => s
  | some word => placeWord word s

end Sys2Proof.Machine
end

