-- ==== Sys2Proof/Machine/Environment.lean ====
section
/-! DEFINITION. The world around the block: the reference channel clock (60_exceptions R192), the stimulus notation of
30_encoding R98, and a test bench that follows it. No step of the block uses this file. -/

namespace Sys2Proof.Machine

/-- The reference channel clock: busy in an even second, free in an odd one (60_exceptions R192). The epoch is open. -/
def referenceBusy (second : Nat) : Bool := second % 2 == 0

/-- The input vector of a cycle with no port operation in which a tick passes and the transport is ready. -/
def Pins.ready : Pins := { Pins.quiet with tick := true, txReady := true }

/-- One line of stimulus (30_encoding R98). -/
inductive StimLine where
  /-- `BUF[a] = v`. -/
  | buf (a : Nat) (v : Byte)
  /-- `SUBMIT n`. -/
  | submit (n : Nat)
  /-- `RX [b0, b1, ...]`: one burst. -/
  | rx (bytes : List Byte)
  /-- `CHAN pre=x post=y`, each part optional as in 95_test_vectors P2. -/
  | chan (pre post : Option Bool)
  /-- `DRAW s`. -/
  | draw (s : Nat)
  /-- `RESET`. -/
  | reset
  deriving DecidableEq, Repr

/-- The cycles of one burst: `rx_last = 1` on the last byte only; an empty burst is no cycle (41_decoder R164). -/
def burstPins : List Byte → List Pins
  | [] => []
  | [b] => [{ Pins.ready with rxValid := true, rxData := b, rxLast := true }]
  | b :: bs => { Pins.ready with rxValid := true, rxData := b, rxLast := false } :: burstPins bs

/-- The input vectors of a line's port operations; a condition on the environment (CHAN, DRAW) has none. -/
def StimLine.vectors : StimLine → List Pins
  | .buf a v => [{ Pins.ready with bufWe := true, bufAddr := a, bufWdata := v }]
  | .submit n => [{ Pins.ready with submit := true, submitLen := n }]
  | .rx bytes => burstPins bytes
  | .chan _ _ => []
  | .draw _ => []
  | .reset => [{ Pins.ready with rst := true }]

/-- `BUF[i] = text[i]` for the whole text, from index `i` on. -/
def bufLines : Nat → List Byte → List StimLine
  | _, [] => []
  | i, b :: bs => .buf i b :: bufLines (i + 1) bs

/-- The pseudo-operation `send(text)` (R98). -/
def sendLines (text : List Byte) : List StimLine := bufLines 0 text ++ [.submit text.length]

/-- The pseudo-operation `on_bytes_received(raw)` (R98). -/
def receiveLines (raw : List Byte) : List StimLine :=
  match raw with
  | [] => []
  | _ => [.rx raw]

/-- What the bench still has to give: port vectors, sample values and draws. -/
structure Bench where
  vectors : List Pins
  pres : List Bool
  posts : List Bool
  draws : List Nat
  deriving DecidableEq, Repr

/-- The bench a list of lines describes. -/
def Bench.ofLines (lines : List StimLine) : Bench where
  vectors := lines.flatMap StimLine.vectors
  pres := lines.filterMap fun l => match l with | .chan p _ => p | _ => none
  posts := lines.filterMap fun l => match l with | .chan _ p => p | _ => none
  draws := lines.filterMap fun l => match l with | .draw d => some d | _ => none

/-- The inputs the bench drives in the coming cycle: its next port vector while the MAC is in IDLE, the next sample value
where the MAC samples, the next draw where it draws; a free channel and draw 0 when it has none left. -/
def Bench.drive (b : Bench) (s : State) : Pins × Bench :=
  match s.mac.state with
  | .idle =>
    match b.vectors with
    | [] => (Pins.ready, b)
    | p :: ps => (p, { b with vectors := ps })
  | .waitFree =>
    if s.mac.timer = 0 then
      ({ Pins.ready with chanBusy := b.pres.headD false }, { b with pres := b.pres.tail })
    else (Pins.ready, b)
  | .checkCollision =>
    ({ Pins.ready with chanBusy := b.posts.headD false }, { b with posts := b.posts.tail })
  | .backoffDraw => ({ Pins.ready with rng := b.draws.headD 0 }, { b with draws := b.draws.tail })
  | .transmitted => (Pins.ready, b)
  | .success => (Pins.ready, b)
  | .sendJam => (Pins.ready, b)
  | .backoff => (Pins.ready, b)
  | .sendEsc => (Pins.ready, b)

/-- `n` cycles of the machine under the bench. -/
def Bench.run : Nat → Bench → State → Result
  | 0, _, s => .next s
  | n + 1, b, s => andThen (step { s with pins := (b.drive s).1 }) (Bench.run n (b.drive s).2)

end Sys2Proof.Machine
end

