-- ==== Sys2Proof/Safety.lean ====
section
/-! DEFINITION. What counts as a safe state and a faithful run, in the terms the statements use: the state invariant, the
edge table of the sequencer, the wire sequence of a send, the decoder as a function on bytes, and frames. -/

namespace Sys2Proof.Machine

/-! The byte that one entry of the buffer holds. -/

/-- The byte of buffer entry `a` (20_memory R61), a free one where nothing was written (R69). -/
def bufferByte (s : State) (a : Nat) : Byte := (Memory.read s.mac.txbuf a).getD (unwrittenByte s a)

/-- The message in progress: the first `tx_len` bytes of the buffer (40_mac R110). -/
def message (s : State) : List Byte := (List.range s.mac.txLen).map (bufferByte s)

/-- The symbol being sent, `txbuf[tx_idx]` (10_state R22). -/
def currentSymbol (s : State) : Byte := bufferByte s s.mac.txIdx

/-! The invariant. -/

/-- The seven states in which a symbol is in progress (10_state R22). -/
def MacState.sending : MacState → Bool
  | .idle => false
  | .sendEsc => false
  | .waitFree => true
  | .transmitted => true
  | .checkCollision => true
  | .success => true
  | .sendJam => true
  | .backoffDraw => true
  | .backoff => true

/-- The three states with a timed wait (40_mac R128). -/
def MacState.timed : MacState → Bool
  | .waitFree => true
  | .transmitted => true
  | .backoff => true
  | .idle => false
  | .checkCollision => false
  | .success => false
  | .sendJam => false
  | .backoffDraw => false
  | .sendEsc => false

/-- What holds in every state the block can be in. -/
structure Inv (s : State) : Prop where
  /-- The parameters obey 00_scope R5. -/
  legal : s.cfg.legal = true
  /-- The buffer list is canonical. -/
  bufferCanonical : Memory.wf s.mac.txbuf = true
  /-- Its indices have `AW` bits (20_memory R60). -/
  bufferInRange : ∀ e ∈ s.mac.txbuf, e.1 < s.cfg.depth
  /-- `tx_len <= 2^AW - 1` (10_state R22). -/
  lengthFits : s.mac.txLen < s.cfg.depth
  /-- `tx_idx` never passes `tx_len` (10_state R22). -/
  indexBounded : s.mac.txIdx ≤ s.mac.txLen
  /-- `tx_idx < tx_len` while a symbol is in progress (10_state R22). -/
  indexInside : s.mac.state.sending = true → s.mac.txIdx < s.mac.txLen
  /-- `tx_idx = tx_len` in SEND_ESC (10_state R22). -/
  indexAtEnd : s.mac.state = .sendEsc → s.mac.txIdx = s.mac.txLen
  /-- `retry_cnt <= MAX_TRIES` (10_state R30). -/
  retryBounded : s.mac.retryCnt ≤ s.cfg.maxTries
  /-- A draw follows a counted collision (40_mac R118: `1 <= retry_cnt`). -/
  retryCounted : s.mac.state = .backoffDraw → 1 ≤ s.mac.retryCnt
  /-- `slot_cnt <= 2^MAX_TRIES` (10_state R24). -/
  slotBounded : s.mac.slotCnt ≤ 2 ^ s.cfg.maxTries
  /-- `timer` has `TW` bits (10_state R25). -/
  timerFits : s.mac.timer < 2 ^ s.cfg.tw
  /-- Outside the timed states `timer` is 0 (40_mac R121, R128). -/
  timerOnlyInWaits : s.mac.state.timed = false → s.mac.timer = 0
  /-- `st_done` and `st_err` are never both 1 (10_state R27). -/
  reportsExclusive : ¬ (s.mac.stDone = true ∧ s.mac.stErr = true)
  /-- During a send neither report is set (40_mac R112). -/
  noReportWhileBusy : s.mac.state ≠ .idle → s.mac.stDone = false ∧ s.mac.stErr = false
  /-- `err_idx` has `AW` bits (10_state R27). -/
  errIndexFits : s.mac.errIdx < s.cfg.depth
  /-- A receiver's MAC stays in IDLE (60_exceptions R190). -/
  receiverIdles : s.cfg.mode = .receiver → s.mac.state = .idle
  /-- A sender's decoder holds nothing (60_exceptions R190). -/
  senderHoldsNothing : s.cfg.mode = .sender → s.lookahead = none
  /-- The held byte is an ordinary one (10_state R29). -/
  heldByteOrdinary : ∀ b, s.lookahead = some b → b ≠ s.cfg.jamByte ∧ b ≠ s.cfg.escByte

/-! The edge table of the sequencer. -/

/-- Where the sequencer goes in a step without reset, row by row as 40_mac R137 lists the edges. -/
def edgeTarget (s : State) : MacState :=
  match s.mac.state with
  | .idle =>
    if s.pins.submit = true ∧ s.cfg.mode = .sender then
      if s.pins.submitLen % s.cfg.depth = 0 then .sendEsc else .waitFree
    else .idle
  | .waitFree =>
    if s.mac.timer = 0 ∧ s.pins.chanBusy = false ∧ s.pins.txReady = true then .transmitted else .waitFree
  | .transmitted => if s.mac.timer = 0 then .checkCollision else .transmitted
  | .checkCollision => if s.pins.chanBusy = true then .sendJam else .success
  | .sendJam =>
    if s.pins.txReady = true then
      if s.mac.retryCnt = s.cfg.maxTries then .idle else .backoffDraw
    else .sendJam
  | .backoffDraw =>
    if s.pins.rng % 2 ^ (s.mac.retryCnt + 1) ≤ 2 ^ s.mac.retryCnt then .backoff else .backoffDraw
  | .backoff => if s.mac.timer = 0 then .waitFree else .backoff
  | .success => if s.mac.txIdx + 1 = s.mac.txLen then .sendEsc else .waitFree
  | .sendEsc => if s.pins.txReady = true then .idle else .sendEsc

/-- How far a send is from its end: falls at every change of `mac_state` during a send (40_mac R134). -/
def rank (s : State) : Nat :=
  let attemptsLeft := (s.mac.txLen - s.mac.txIdx) * (s.cfg.maxTries + 1) - s.mac.retryCnt
  match s.mac.state with
  | .idle => 0
  | .sendEsc => 1
  | .success => attemptsLeft * 8 + 4
  | .sendJam => attemptsLeft * 8 + 4
  | .checkCollision => attemptsLeft * 8 + 5
  | .transmitted => attemptsLeft * 8 + 6
  | .waitFree => attemptsLeft * 8 + 7
  | .backoff => attemptsLeft * 8 + 8
  | .backoffDraw => attemptsLeft * 8 + 9

/-! The wire. -/

/-- `(b Jam)^n`: `n` attempts at a symbol that all met a collision (40_mac R132). -/
def attempts (c : Config) (b : Byte) (n : Nat) : List Byte := (List.replicate n [b, c.jamByte]).flatten

/-- The bytes of symbols sent to the end, each with its number of collisions (40_mac R132). -/
def deliveredWire (c : Config) (sent : List (Byte × Nat)) : List Byte :=
  sent.flatMap fun p => attempts c p.1 p.2 ++ [p.1]

/-- The bytes of a completed send (40_mac R132). -/
def completedWire (c : Config) (sent : List (Byte × Nat)) : List Byte := deliveredWire c sent ++ [c.escByte]

/-- The bytes of a send aborted at the symbol `b`, after `sent` (40_mac R132). -/
def abortedWire (c : Config) (sent : List (Byte × Nat)) (b : Byte) : List Byte :=
  deliveredWire c sent ++ attempts c b (c.maxTries + 1)

/-- What the post samples of a trace returned, in order. -/
def postSamples (samples : List (SampleKind × Bool)) : List Bool :=
  samples.filterMap fun p => match p.1 with | .pre => none | .post => some p.2

/-- The post samples of a symbol delivered after `n` collisions (40_mac R132). -/
def symbolPosts (n : Nat) : List Bool := List.replicate n true ++ [false]

/-- The exponents of the draws made for a symbol with `n` of them: 1, 2, ..., n (40_mac R132). -/
def symbolDraws (n : Nat) : List Nat := (List.range n).map (· + 1)

/-- What the symbol in progress, or the end of the send, has put on the wire so far. -/
def currentWire (s : State) : List Byte :=
  match s.mac.state with
  | .waitFree => attempts s.cfg (currentSymbol s) s.mac.retryCnt
  | .backoffDraw => attempts s.cfg (currentSymbol s) s.mac.retryCnt
  | .backoff => attempts s.cfg (currentSymbol s) s.mac.retryCnt
  | .transmitted => attempts s.cfg (currentSymbol s) s.mac.retryCnt ++ [currentSymbol s]
  | .checkCollision => attempts s.cfg (currentSymbol s) s.mac.retryCnt ++ [currentSymbol s]
  | .sendJam => attempts s.cfg (currentSymbol s) s.mac.retryCnt ++ [currentSymbol s]
  | .success => attempts s.cfg (currentSymbol s) s.mac.retryCnt ++ [currentSymbol s]
  | .sendEsc => []
  | .idle => if s.mac.stErr then attempts s.cfg (currentSymbol s) (s.cfg.maxTries + 1) else [s.cfg.escByte]

/-- The post samples of the symbol in progress so far. -/
def currentPosts (s : State) : List Bool :=
  match s.mac.state with
  | .waitFree => List.replicate s.mac.retryCnt true
  | .transmitted => List.replicate s.mac.retryCnt true
  | .checkCollision => List.replicate s.mac.retryCnt true
  | .backoffDraw => List.replicate s.mac.retryCnt true
  | .backoff => List.replicate s.mac.retryCnt true
  | .sendJam => List.replicate (s.mac.retryCnt + 1) true
  | .success => symbolPosts s.mac.retryCnt
  | .sendEsc => []
  | .idle => if s.mac.stErr then List.replicate (s.cfg.maxTries + 1) true else []

/-- The exponents of the draws of the symbol in progress so far. -/
def currentDraws (s : State) : List Nat :=
  match s.mac.state with
  | .waitFree => symbolDraws s.mac.retryCnt
  | .transmitted => symbolDraws s.mac.retryCnt
  | .checkCollision => symbolDraws s.mac.retryCnt
  | .sendJam => symbolDraws s.mac.retryCnt
  | .success => symbolDraws s.mac.retryCnt
  | .backoff => symbolDraws s.mac.retryCnt
  | .backoffDraw => symbolDraws (s.mac.retryCnt - 1)
  | .sendEsc => []
  | .idle => if s.mac.stErr then symbolDraws s.cfg.maxTries else []

/-- The send that began when the traces were `tr0` has done, up to state `s`, exactly what 40_mac R132 says: for some
collision counts of the symbols done so far, none above `MAX_TRIES`, the bytes, the post samples and the draws since
`tr0` are those of these symbols followed by those of the symbol in progress. In IDLE the send is over, with exactly
one of `st_done` and `st_err` set: everything was delivered and the Escape written, or the symbol at `err_idx` met its
last collision (R126, R239). -/
def SendProgress (tr0 : Traces) (s : State) : Prop :=
  ∃ counts : List Nat,
    counts.length = s.mac.txIdx
    ∧ (∀ n ∈ counts, n ≤ s.cfg.maxTries)
    ∧ s.tr.tx = tr0.tx ++ deliveredWire s.cfg ((message s).zip counts) ++ currentWire s
    ∧ postSamples s.tr.samples = postSamples tr0.samples ++ counts.flatMap symbolPosts ++ currentPosts s
    ∧ s.tr.draws.map Prod.fst = tr0.draws.map Prod.fst ++ counts.flatMap symbolDraws ++ currentDraws s
    ∧ (s.mac.state = .idle →
        (s.mac.stDone = true ∧ s.mac.stErr = false ∧ s.mac.txIdx = s.mac.txLen)
        ∨ (s.mac.stDone = false ∧ s.mac.stErr = true ∧ s.mac.errIdx = s.mac.txIdx
            ∧ s.mac.txIdx < s.mac.txLen))

/-! The decoder as a function on bytes (41_decoder R167). -/

/-- One byte from a lookahead state: the new lookahead state and what is emitted (R161, R162, R163). -/
def decodeByte (c : Config) (held : Option Byte) (b : Byte) : Option Byte × List Byte :=
  if b = c.jamByte then (none, [])
  else if b = c.escByte then (none, held.toList)
  else (some b, held.toList)

/-- The left fold of `decodeByte` over a byte sequence. -/
def decodeStream (c : Config) : Option Byte → List Byte → Option Byte × List Byte
  | held, [] => (held, [])
  | held, b :: bs =>
    let first := decodeByte c held b
    let rest := decodeStream c first.1 bs
    (rest.1, first.2 ++ rest.2)

/-! Running several operations, or several cycles. -/

/-- Instructions one after the other, stopping at the first stop. -/
def execAll : List Instr → State → Result
  | [], s => .next s
  | i :: is, s => andThen (exec i s) (execAll is)

/-- The instruction of a sequencer state (10_state R21: its transition rule). -/
def MacState.instr : MacState → Instr
  | .idle => .idle
  | .waitFree => .waitFree
  | .transmitted => .transmitted
  | .checkCollision => .checkCollision
  | .success => .success
  | .sendJam => .sendJam
  | .backoffDraw => .backoffDraw
  | .backoff => .backoff
  | .sendEsc => .sendEsc

/-- The operations of the coming cycle (30_encoding R95, R96): RESET alone, or the accepted and the ignored port
operations whose strobes are 1 and the rule of the sequencer's state. -/
def cycleOps (s : State) : List Instr :=
  if s.pins.rst = true then [.reset]
  else
    (if s.pins.bufWe = true then [.bufWrite (s.pins.bufAddr % s.cfg.depth) s.pins.bufWdata] else [])
      ++ (if s.pins.submit = true then [.submit (s.pins.submitLen % s.cfg.depth)] else [])
      ++ (if s.pins.rxValid = true then [.rxByte s.pins.rxData s.pins.rxLast] else [])
      ++ [s.mac.state.instr]

/-! Frames. -/

/-- Configuration, inputs and the model's counters are as before. -/
def SameEnvironment (s t : State) : Prop :=
  t.cfg = s.cfg ∧ t.pins = s.pins ∧ t.stim = s.stim ∧ t.cycle = s.cycle ∧ t.seed = s.seed

/-- Every byte of the buffer reads as before. -/
def SameBuffer (s t : State) : Prop := ∀ a, memRead t a = memRead s a

/-- The decoder's state, outputs and traces are as before (10_state R20). -/
def SameDecoder (s t : State) : Prop :=
  t.lookahead = s.lookahead ∧ t.out.dec = s.out.dec ∧ t.out.decNotify = s.out.decNotify
    ∧ t.tr.decOut = s.tr.decOut ∧ t.tr.batch = s.tr.batch ∧ t.tr.batches = s.tr.batches

/-- The MAC's registers (its buffer, flags and report registers among them), outputs and traces are as before
(10_state R20). -/
def SameMac (s t : State) : Prop :=
  t.mac = s.mac ∧ t.out.tx = s.out.tx ∧ t.out.evt = s.out.evt ∧ t.out.irqDone = s.out.irqDone
    ∧ t.out.irqErr = s.out.irqErr ∧ t.tr.tx = s.tr.tx ∧ t.tr.samples = s.tr.samples
    ∧ t.tr.draws = s.tr.draws ∧ t.tr.evts = s.tr.evts

/-- The two input vectors agree on what the MAC looks at: all but the receive port (10_state R32). -/
def SameMacInputs (p q : Pins) : Prop :=
  p.rst = q.rst ∧ p.tick = q.tick ∧ p.chanBusy = q.chanBusy ∧ p.rng = q.rng ∧ p.bufWe = q.bufWe
    ∧ p.bufAddr = q.bufAddr ∧ p.bufWdata = q.bufWdata ∧ p.submit = q.submit ∧ p.submitLen = q.submitLen
    ∧ p.txReady = q.txReady

/-- The two input vectors agree on what the decoder looks at: reset and the receive port (10_state R32). -/
def SameDecoderInputs (p q : Pins) : Prop :=
  p.rst = q.rst ∧ p.rxValid = q.rxValid ∧ p.rxData = q.rxData ∧ p.rxLast = q.rxLast

end Sys2Proof.Machine
end

