-- ==== Sys2Proof/Certificates/Slice0/Obligations.lean ====
section
/-! DEFINITION. The statements for the provers. They state and never prove. -/

open Sys2Proof Sys2Proof.Machine

/-! Encoding. -/

/-- 30_encoding R91, R95, R96; 10_state R21; 60_exceptions R194: no bit of an encoding is dropped. -/
def Obligations.EncodedInstructionDecodesBack : Prop :=
  ∀ (c : Config) (i : Instr), c.jamByte ≠ c.escByte → i.wf c = true → decode c (encode c i) = .op i

/-- The same tables read the other way: a word within its ports' wires has one meaning. -/
def Obligations.DecodedWordEncodesBack : Prop :=
  ∀ (c : Config) (w : OpWord) (i : Instr), w.fits c = true → decode c w = .op i → encode c i = w

/-- 30_encoding R91: "each of the 256 byte values falls in exactly one class". -/
def Obligations.WireBytesFallIntoThreeClasses : Prop :=
  ∀ c : Config, c.jamByte ≠ c.escByte →
    (∀ b, decode c (.wire8 b) = .op .jam ↔ b = c.jamByte)
    ∧ (∀ b, decode c (.wire8 b) = .op .esc ↔ b = c.escByte)
    ∧ (∀ b, decode c (.wire8 b) = .op (.data b) ↔ b ≠ c.jamByte ∧ b ≠ c.escByte)
    ∧ (Finset.univ.filter fun b : Byte => decode c (.wire8 b) = .op (.data b)).card = 254

/-- 10_state R21, 60_exceptions R194, 00_scope R5 (reference values): words written out from the tables. -/
def Obligations.SampleWordsDecodeAsTheTablesSay : Prop :=
  decode Config.reference (.wire8 0x18) = .op .jam
  ∧ decode Config.reference (.wire8 0x1B) = .op .esc
  ∧ decode Config.reference (.wire8 0x68) = .op (.data 0x68)
  ∧ decode Config.reference (.seqState 0b0011) = .op .checkCollision
  ∧ decode Config.reference (.seqState 0b1000) = .op .sendEsc
  ∧ decode Config.reference (.seqState 0b1001) = .rejected (.unusedStateCode 0b1001)
  ∧ decode Config.reference (.event true 0b110 10) = .op (.evtTriesExpired 10)
  ∧ decode Config.reference (.event true 0b111 0) = .rejected (.unusedEventCode 0b111)
  ∧ decode Config.reference (.bufPort true 5 0x41) = .op (.bufWrite 5 0x41)
  ∧ decode Config.reference (.submitPort false 3) = .rejected .noStrobe

/-! The decoder's rules. -/

/-- 41_decoder R161. That JAM run on its own acts in either mode is the model's reading (log 12); a cycle reaches it in
RECEIVER mode alone (ReceivedByteRunsItsClassAndNotifies, SenderIgnoresReceivedBytes). -/
def Obligations.JamDiscardsTheHeldByte : Prop :=
  ∀ s : State, ∃ t, exec .jam s = .next t ∧ t.lookahead = none ∧ t.mac = s.mac ∧ t.out = s.out ∧ t.tr = s.tr
    ∧ SameEnvironment s t ∧ SameBuffer s t

/-- 41_decoder R162: with a byte held it is emitted once; with none nothing is emitted. That ESC run on its own acts in
either mode is the model's reading (log 12). -/
def Obligations.EscapeFlushesTheHeldByteOnce : Prop :=
  ∀ s : State, ∃ t, exec .esc s = .next t ∧ t.lookahead = none
    ∧ (∀ c, s.lookahead = some c →
        t.out = { s.out with dec := some c }
        ∧ t.tr = { s.tr with decOut := s.tr.decOut ++ [c], batch := s.tr.batch ++ [c] })
    ∧ (s.lookahead = none → t.out = s.out ∧ t.tr = s.tr)
    ∧ SameMac s t ∧ SameEnvironment s t ∧ SameBuffer s t

/-- 41_decoder R163: the byte emitted is the old held byte, never the new one. That DATA run on its own acts in either mode,
and with an operand that R163 excludes (a control byte, which no decoded DATA carries), is the model's reading (log 12). -/
def Obligations.DataByteFlushesTheOldAndIsHeld : Prop :=
  ∀ (s : State) (b : Byte), ∃ t, exec (.data b) s = .next t ∧ t.lookahead = some b
    ∧ (∀ c, s.lookahead = some c →
        t.out = { s.out with dec := some c }
        ∧ t.tr = { s.tr with decOut := s.tr.decOut ++ [c], batch := s.tr.batch ++ [c] })
    ∧ (s.lookahead = none → t.out = s.out ∧ t.tr = s.tr)
    ∧ SameMac s t ∧ SameEnvironment s t ∧ SameBuffer s t

/-- 41_decoder R160, R164: in RECEIVER mode a received byte has the effect of its class, tested Jam, Escape, data; with
`rx_last = 1` the consumer is then notified with the characters emitted since the last notification. -/
def Obligations.ReceivedByteRunsItsClassAndNotifies : Prop :=
  ∀ (s : State) (b : Byte) (last : Bool), s.cfg.mode = .receiver →
    ∃ u t, exec (if b = s.cfg.jamByte then .jam else if b = s.cfg.escByte then .esc else .data b) s = .next u
      ∧ exec (.rxByte b last) s = .next t
      ∧ t.lookahead = u.lookahead
      ∧ (last = false → t.out = u.out ∧ t.tr = u.tr)
      ∧ (last = true → t.out = { u.out with decNotify := true }
          ∧ t.tr = { u.tr with batches := u.tr.batches ++ [u.tr.batch], batch := [] })
      ∧ t.mac = s.mac ∧ SameEnvironment s t ∧ SameBuffer s t

/-- 41_decoder R165: "With `MODE = SENDER` the decoder ignores `rx_valid`". -/
def Obligations.SenderIgnoresReceivedBytes : Prop :=
  ∀ (s : State) (b : Byte) (last : Bool), s.cfg.mode = .sender → exec (.rxByte b last) s = .next s

/-- 41_decoder R167: receiving bytes in any cutting into bursts emits what the fold over the bytes emits, and holds what
it holds. -/
def Obligations.DecoderIsTheFoldOverTheBytes : Prop :=
  ∀ (bytes : List (Byte × Bool)) (s : State), s.cfg.mode = .receiver →
    ∃ t, execAll (bytes.map fun p => .rxByte p.1 p.2) s = .next t
      ∧ t.lookahead = (decodeStream s.cfg s.lookahead (bytes.map Prod.fst)).1
      ∧ t.tr.decOut = s.tr.decOut ++ (decodeStream s.cfg s.lookahead (bytes.map Prod.fst)).2
      ∧ t.mac = s.mac ∧ SameEnvironment s t

/-- 41_decoder R171 with the wire sequences of 40_mac R132: a completed send decodes to exactly the message whatever the
collision counts, an aborted one to the symbols before the aborted one, and nothing stays held. -/
def Obligations.SentMessageDecodesToItself : Prop :=
  ∀ (c : Config) (sent : List (Byte × Nat)), c.jamByte ≠ c.escByte →
    (∀ p ∈ sent, p.1 ≠ c.jamByte ∧ p.1 ≠ c.escByte) →
      decodeStream c none (completedWire c sent) = (none, sent.map Prod.fst)
      ∧ ∀ b, b ≠ c.jamByte → b ≠ c.escByte →
          decodeStream c none (abortedWire c sent b) = (none, sent.map Prod.fst)

/-! The port operations. -/

/-- 40_mac R111: accepted in IDLE in either mode, ignored silently otherwise. -/
def Obligations.BufWriteStoresOnlyInIdle : Prop :=
  ∀ (s : State) (addr : Nat) (v : Byte), addr < s.cfg.depth →
    (s.mac.state = .idle → ∃ t, exec (.bufWrite addr v) s = .next t
      ∧ memRead t addr = .ok v
      ∧ (∀ a, a ≠ addr → memRead t a = memRead s a)
      ∧ t.mac = { s.mac with txbuf := t.mac.txbuf }
      ∧ t.lookahead = s.lookahead ∧ t.out = s.out ∧ t.tr = s.tr ∧ SameEnvironment s t)
    ∧ (s.mac.state ≠ .idle → exec (.bufWrite addr v) s = .next s)

/-- 40_mac R112: accepted exactly while the output `submit_ready` is 1, which is in IDLE in SENDER mode, and ignored silently
otherwise; the output `mac_busy` is 1 exactly outside IDLE (10_state R32, 40_mac R125). -/
def Obligations.SubmitStartsASend : Prop :=
  ∀ (s : State) (len : Nat), len < s.cfg.depth →
    (submitReady s = true ↔ s.mac.state = .idle ∧ s.cfg.mode = .sender)
    ∧ (macBusy s = true ↔ s.mac.state ≠ .idle)
    ∧ (submitReady s = true → ∃ t, exec (.submit len) s = .next t
      ∧ t.mac.txLen = len ∧ t.mac.txIdx = 0 ∧ t.mac.retryCnt = 0 ∧ t.mac.timer = 0
      ∧ t.mac.stDone = false ∧ t.mac.stErr = false ∧ submitReady t = false ∧ macBusy t = true
      ∧ (len = 0 → t.mac.state = .sendEsc) ∧ (len ≠ 0 → t.mac.state = .waitFree)
      ∧ t.mac.slotCnt = s.mac.slotCnt ∧ t.mac.errIdx = s.mac.errIdx
      ∧ t.lookahead = s.lookahead ∧ t.out = s.out ∧ t.tr = s.tr ∧ SameEnvironment s t ∧ SameBuffer s t)
    ∧ (submitReady s = false → exec (.submit len) s = .next s)

/-- 10_state R35: the reset values; the parameters are not affected. That the buffer reads as before and that the inputs and
the record of the run stay is the model's reading of "not reset" and its choice (log 4). -/
def Obligations.ResetGivesTheResetValues : Prop :=
  ∀ s : State, ∃ t, exec .reset s = .next t
    ∧ t.mac.state = .idle ∧ t.mac.txLen = 0 ∧ t.mac.txIdx = 0 ∧ t.mac.retryCnt = 0 ∧ t.mac.slotCnt = 0
    ∧ t.mac.timer = 0 ∧ t.mac.stDone = false ∧ t.mac.stErr = false ∧ t.mac.errIdx = 0
    ∧ t.lookahead = none
    ∧ t.out.tx = none ∧ t.out.dec = none ∧ t.out.decNotify = false ∧ t.out.evt = none
    ∧ t.out.irqDone = false ∧ t.out.irqErr = false
    ∧ t.tr = s.tr ∧ SameEnvironment s t ∧ SameBuffer s t

/-- The model's stops on operands that no port can carry (log 16), in the state where the operation is accepted, and on a
`tx_idx` that its `AW` bits cannot hold (log 8), in the step that would fetch the symbol. -/
def Obligations.OperandsBeyondTheirPortsFault : Prop :=
  ∀ (s : State) (n : Nat) (v : Byte), s.cfg.depth ≤ n →
    (s.mac.state = .idle → exec (.bufWrite n v) s = .fault (.outsideBuffer n))
    ∧ (s.mac.state = .idle → s.cfg.mode = .sender → exec (.submit n) s = .fault (.messageTooLong n))
    ∧ (s.mac.txIdx = n → s.mac.timer = 0 → s.pins.chanBusy = false → s.pins.txReady = true →
        exec .waitFree s = .fault (.outsideBuffer n))

/-! The sequencer's rules. -/

/-- 40_mac R113: nothing changes in IDLE but by an accepted BUF_WRITE or SUBMIT. -/
def Obligations.IdleStaysUntilAStrobeIsAccepted : Prop :=
  (∀ s : State, exec .idle s = .next s)
  ∧ ∀ s : State, s.cfg.legal = true → s.mac.state = .idle → s.pins.rst = false → s.pins.bufWe = false →
      (s.pins.submit = false ∨ s.cfg.mode = .receiver) →
      ∃ t, step s = .next t ∧ t.mac = s.mac ∧ t.out.tx = none ∧ t.out.evt = none
        ∧ t.out.irqDone = false ∧ t.out.irqErr = false
        ∧ t.tr.tx = s.tr.tx ∧ t.tr.samples = s.tr.samples ∧ t.tr.draws = s.tr.draws ∧ t.tr.evts = s.tr.evts

/-- 40_mac R114: the poll sleep, the failed sample, and the symbol written in the step of the free sample. The event's
argument is stated where the symbol fits `SW` bits; elsewhere it is a free value (log 13). -/
def Obligations.WaitFreeSendsOnAFreeSample : Prop :=
  ∀ s : State, s.mac.txIdx < s.cfg.depth →
    (s.mac.timer ≠ 0 → ∃ t, exec .waitFree s = .next t
      ∧ t.mac = { s.mac with timer := if s.pins.tick = true then s.mac.timer - 1 else s.mac.timer }
      ∧ t.lookahead = s.lookahead ∧ t.out = s.out ∧ t.tr = s.tr ∧ SameEnvironment s t ∧ SameBuffer s t)
    ∧ (s.mac.timer = 0 → (s.pins.chanBusy = true ∨ s.pins.txReady = false) → ∃ t, exec .waitFree s = .next t
      ∧ t.mac = { s.mac with timer := s.cfg.pollInterval }
      ∧ t.tr = { s.tr with samples := s.tr.samples ++ [(.pre, s.pins.chanBusy)] }
      ∧ t.lookahead = s.lookahead ∧ t.out = s.out ∧ SameEnvironment s t ∧ SameBuffer s t)
    ∧ (s.mac.timer = 0 → s.pins.chanBusy = false → s.pins.txReady = true → ∃ t b, exec .waitFree s = .next t
      ∧ memRead s s.mac.txIdx = .ok b
      ∧ t.mac = { s.mac with timer := s.cfg.collisionWindow, state := .transmitted }
      ∧ t.out.tx = some b
      ∧ t.tr.tx = s.tr.tx ++ [b]
      ∧ t.tr.samples = s.tr.samples ++ [(.pre, false)]
      ∧ (∃ arg, t.out.evt = some ⟨.symbolTx, arg⟩ ∧ t.tr.evts = s.tr.evts ++ [⟨.symbolTx, arg⟩]
          ∧ (b.toNat < 2 ^ s.cfg.sw → arg = b.toNat))
      ∧ t.out.irqDone = s.out.irqDone ∧ t.out.irqErr = s.out.irqErr ∧ t.tr.draws = s.tr.draws
      ∧ SameDecoder s t ∧ SameEnvironment s t ∧ SameBuffer s t)

/-- 40_mac R115: the collision window; the channel is not sampled in it. -/
def Obligations.TransmittedWaitsOutTheWindow : Prop :=
  ∀ s : State,
    (s.mac.timer ≠ 0 → ∃ t, exec .transmitted s = .next t
      ∧ t.mac = { s.mac with timer := if s.pins.tick = true then s.mac.timer - 1 else s.mac.timer }
      ∧ t.lookahead = s.lookahead ∧ t.out = s.out ∧ t.tr = s.tr ∧ SameEnvironment s t ∧ SameBuffer s t)
    ∧ (s.mac.timer = 0 → ∃ t, exec .transmitted s = .next t
      ∧ t.mac = { s.mac with state := .checkCollision }
      ∧ t.lookahead = s.lookahead ∧ t.out = s.out ∧ t.tr = s.tr ∧ SameEnvironment s t ∧ SameBuffer s t)

/-- 40_mac R116: one sample after the window declares or denies the collision. -/
def Obligations.CheckCollisionSamplesOnce : Prop :=
  ∀ s : State,
    (s.pins.chanBusy = true → ∃ t, exec .checkCollision s = .next t
      ∧ t.mac = { s.mac with state := .sendJam }
      ∧ t.out = { s.out with evt := some ⟨.collision, s.mac.retryCnt⟩ }
      ∧ t.tr = { s.tr with samples := s.tr.samples ++ [(.post, true)],
                           evts := s.tr.evts ++ [⟨.collision, s.mac.retryCnt⟩] }
      ∧ t.lookahead = s.lookahead ∧ SameEnvironment s t ∧ SameBuffer s t)
    ∧ (s.pins.chanBusy = false → ∃ t, exec .checkCollision s = .next t
      ∧ t.mac = { s.mac with state := .success }
      ∧ t.out = s.out
      ∧ t.tr = { s.tr with samples := s.tr.samples ++ [(.post, false)] }
      ∧ t.lookahead = s.lookahead ∧ SameEnvironment s t ∧ SameBuffer s t)

/-- 40_mac R117 with 60_exceptions R187: the Jam is written for every collision; the one met with `retry_cnt = MAX_TRIES`
takes the exception `TriesExpired`, any other is counted. -/
def Obligations.SendJamCountsOrAborts : Prop :=
  ∀ s : State,
    (s.pins.txReady = false → exec .sendJam s = .next s)
    ∧ (s.pins.txReady = true → s.mac.retryCnt ≠ s.cfg.maxTries → ∃ t, exec .sendJam s = .next t
      ∧ t.mac = { s.mac with retryCnt := s.mac.retryCnt + 1, state := .backoffDraw }
      ∧ t.out = { s.out with tx := some s.cfg.jamByte }
      ∧ t.tr = { s.tr with tx := s.tr.tx ++ [s.cfg.jamByte] }
      ∧ t.lookahead = s.lookahead ∧ SameEnvironment s t ∧ SameBuffer s t)
    ∧ (s.pins.txReady = true → s.mac.retryCnt = s.cfg.maxTries → ∃ t, exec .sendJam s = .next t
      ∧ t.mac = { s.mac with stErr := true, errIdx := s.mac.txIdx, state := .idle }
      ∧ errCode t = 1
      ∧ t.out = { s.out with tx := some s.cfg.jamByte, irqErr := true,
                             evt := some ⟨.triesExpired, s.mac.retryCnt⟩ }
      ∧ t.tr = { s.tr with tx := s.tr.tx ++ [s.cfg.jamByte],
                           evts := s.tr.evts ++ [⟨.triesExpired, s.mac.retryCnt⟩] }
      ∧ t.lookahead = s.lookahead ∧ SameEnvironment s t ∧ SameBuffer s t)

/-- 40_mac R118, R119: with `k = retry_cnt`, the low `k + 1` bits of the random word are the draw if they lie in
`[0, 2^k]`; otherwise nothing changes. -/
def Obligations.BackoffDrawAcceptsOrLooksAgain : Prop :=
  ∀ s : State, 1 ≤ s.mac.retryCnt → s.mac.retryCnt ≤ s.cfg.maxTries →
    (∀ d, d = s.pins.rng % 2 ^ (s.mac.retryCnt + 1) → d ≤ 2 ^ s.mac.retryCnt →
      ∃ t, exec .backoffDraw s = .next t
        ∧ t.mac = { s.mac with slotCnt := d, timer := d * s.cfg.slotTime, state := .backoff }
        ∧ t.out = { s.out with evt := some ⟨.backoff, d⟩ }
        ∧ t.tr = { s.tr with draws := s.tr.draws ++ [(s.mac.retryCnt, d)],
                             evts := s.tr.evts ++ [⟨.backoff, d⟩] }
        ∧ t.lookahead = s.lookahead ∧ SameEnvironment s t ∧ SameBuffer s t)
    ∧ (2 ^ s.mac.retryCnt < s.pins.rng % 2 ^ (s.mac.retryCnt + 1) → exec .backoffDraw s = .next s)

/-- 40_mac R118: every integer of `[0, 2^k]` is a possible draw, for some random word of `SW` bits. -/
def Obligations.EverySlotCountInRangeCanBeDrawn : Prop :=
  ∀ (s : State) (d : Nat), 1 ≤ s.mac.retryCnt → s.mac.retryCnt ≤ s.cfg.maxTries → d ≤ 2 ^ s.mac.retryCnt →
    ∃ word t, word < 2 ^ s.cfg.sw ∧ exec .backoffDraw { s with pins.rng := word } = .next t
      ∧ t.mac.slotCnt = d ∧ t.mac.timer = d * s.cfg.slotTime ∧ t.mac.state = .backoff

/-- 40_mac R120: the backoff sleep, then the same symbol again with its count kept. -/
def Obligations.BackoffRetriesTheSameSymbol : Prop :=
  ∀ s : State,
    (s.mac.timer ≠ 0 → ∃ t, exec .backoff s = .next t
      ∧ t.mac = { s.mac with timer := if s.pins.tick = true then s.mac.timer - 1 else s.mac.timer }
      ∧ t.lookahead = s.lookahead ∧ t.out = s.out ∧ t.tr = s.tr ∧ SameEnvironment s t ∧ SameBuffer s t)
    ∧ (s.mac.timer = 0 → ∃ t, exec .backoff s = .next t
      ∧ t.mac = { s.mac with state := .waitFree }
      ∧ t.lookahead = s.lookahead ∧ t.out = s.out ∧ t.tr = s.tr ∧ SameEnvironment s t ∧ SameBuffer s t)

/-- 40_mac R121: the count is cleared, the index advances, and the last symbol leads to the Escape. -/
def Obligations.SuccessAdvancesToTheNextSymbol : Prop :=
  ∀ s : State, ∃ t, exec .success s = .next t
    ∧ (s.mac.txIdx + 1 = s.mac.txLen →
        t.mac = { s.mac with retryCnt := 0, txIdx := s.mac.txIdx + 1, state := .sendEsc })
    ∧ (s.mac.txIdx + 1 ≠ s.mac.txLen →
        t.mac = { s.mac with retryCnt := 0, txIdx := s.mac.txIdx + 1, state := .waitFree })
    ∧ t.out = { s.out with evt := some ⟨.delivered, s.mac.retryCnt⟩ }
    ∧ t.tr = { s.tr with evts := s.tr.evts ++ [⟨.delivered, s.mac.retryCnt⟩] }
    ∧ t.lookahead = s.lookahead ∧ SameEnvironment s t ∧ SameBuffer s t

/-- 40_mac R122: the Escape ends the message as soon as the transport is ready. -/
def Obligations.SendEscEndsTheMessage : Prop :=
  ∀ s : State,
    (s.pins.txReady = false → exec .sendEsc s = .next s)
    ∧ (s.pins.txReady = true → ∃ t, exec .sendEsc s = .next t
      ∧ t.mac = { s.mac with stDone := true, state := .idle }
      ∧ t.out = { s.out with tx := some s.cfg.escByte, irqDone := true, evt := some ⟨.done, 0⟩ }
      ∧ t.tr = { s.tr with tx := s.tr.tx ++ [s.cfg.escByte], evts := s.tr.evts ++ [⟨.done, 0⟩] }
      ∧ t.lookahead = s.lookahead ∧ SameEnvironment s t ∧ SameBuffer s t)

/-- 40_mac R129: a Jam and an Escape are written whatever `chan_busy` is. -/
def Obligations.ControlBytesIgnoreTheChannel : Prop :=
  ∀ (s : State) (busy : Bool) (i : Instr), i = .sendJam ∨ i = .sendEsc →
    ∃ t u, exec i s = .next t ∧ exec i { s with pins.chanBusy := busy } = .next u
      ∧ u.mac = t.mac ∧ u.out = t.out ∧ u.tr = t.tr ∧ u.lookahead = t.lookahead
      ∧ (s.pins.txReady = true → t.tr.tx = s.tr.tx ++ [if i = .sendJam then s.cfg.jamByte else s.cfg.escByte])
      ∧ t.tr.samples = s.tr.samples

/-! The debug events. -/

/-- 60_exceptions R194: an event drives the debug port with its code and argument for one step, and nothing else. That an EVT
row runs on its own, with whatever argument it carries (also one that its row does not name), is the model's choice
(log 14). -/
def Obligations.EventsDriveOnlyTheDebugPort : Prop :=
  ∀ (s : State) (arg : Nat) (i : Instr) (kind : EvtKind) (code : BitVec 3),
    (i, kind, code) ∈ [(Instr.evtSymbolTx arg, EvtKind.symbolTx, 1), (.evtCollision arg, .collision, 2),
      (.evtBackoff arg, .backoff, 3), (.evtDelivered arg, .delivered, 4), (.evtDone arg, .done, 5),
      (.evtTriesExpired arg, .triesExpired, 6)] →
    ∃ t, exec i s = .next t
      ∧ t.out = { s.out with evt := some ⟨kind, arg⟩ } ∧ evtCode t.out = code
      ∧ t.tr = { s.tr with evts := s.tr.evts ++ [⟨kind, arg⟩] }
      ∧ t.mac = s.mac ∧ t.lookahead = s.lookahead ∧ SameEnvironment s t ∧ SameBuffer s t

/-! The step. -/

/-- 30_encoding R95, R96: a cycle presents words; those that decode are the cycle's operations, and the step runs exactly
these. The model's own: running them one after the other in this order, as their synchronous update (log 3), between
putting the pulse outputs to 0 (log 7) and taking the next inputs (log 1), with port operands cut to their wires
(log 21). -/
def Obligations.StepRunsTheDecodedOperations : Prop :=
  ∀ s : State, s.cfg.legal = true →
    ((cycleWords s).filterMap fun w => match decode s.cfg w with | .op i => some i | .rejected _ => none)
        = cycleOps s
    ∧ step s = andThen (execAll (cycleOps s) (beginCycle s)) fun t => .next (endCycle t)

/-- 10_state R21: with no strobe in the cycle, the step runs the instruction the sequencer's code decodes to, between putting
the pulse outputs to 0 and taking the next inputs (the model's own, logs 7 and 1). -/
def Obligations.StepRunsTheSequencerInstruction : Prop :=
  ∀ (s : State) (i : Instr), s.cfg.legal = true → s.pins.rst = false → s.pins.bufWe = false →
    s.pins.submit = false → s.pins.rxValid = false → decode s.cfg (.seqState s.mac.state.code) = .op i →
    step s = andThen (exec i (beginCycle s)) fun t => .next (endCycle t)

/-- 70_reset_and_hazards R220: reset overrides everything in its step; every state element takes its reset value, all
strobes are ignored and the pulse outputs are 0. That the buffer reads as before and TXTRACE stays is the model's (log 4). -/
def Obligations.ResetOverridesTheCycle : Prop :=
  ∀ s : State, s.cfg.legal = true → s.pins.rst = true → ∃ t, step s = .next t
    ∧ t.mac.state = .idle ∧ t.mac.txLen = 0 ∧ t.mac.txIdx = 0 ∧ t.mac.retryCnt = 0 ∧ t.mac.slotCnt = 0
    ∧ t.mac.timer = 0 ∧ t.mac.stDone = false ∧ t.mac.stErr = false ∧ t.mac.errIdx = 0
    ∧ t.lookahead = none
    ∧ t.out.tx = none ∧ t.out.dec = none ∧ t.out.decNotify = false ∧ t.out.evt = none
    ∧ t.out.irqDone = false ∧ t.out.irqErr = false
    ∧ t.tr.tx = s.tr.tx ∧ SameBuffer s t

/-- A configuration outside any constraint of 00_scope R5 is refused. 93_implementation_defined U17 says so of
`JAM_BYTE = ESC_BYTE`; that the other constraints are treated alike is the model's choice (log 15), and that
`TICK_PERIOD` is a quotient of two numbers is too (log 19). -/
def Obligations.IllegalConfigurationIsRefused : Prop :=
  ∀ s : State, (s.cfg.jamByte = s.cfg.escByte ∨ s.cfg.maxTries = 0 ∨ 15 < s.cfg.maxTries ∨ s.cfg.pollInterval = 0
      ∨ s.cfg.aw = 0 ∨ 2 ^ s.cfg.tw ≤ s.cfg.collisionWindow ∨ 2 ^ s.cfg.tw ≤ s.cfg.pollInterval
      ∨ 2 ^ s.cfg.tw ≤ 2 ^ s.cfg.maxTries * s.cfg.slotTime ∨ s.cfg.tickNum = 0 ∨ s.cfg.tickDen = 0) →
    step s = .refused .illegalConfiguration

/-- 20_memory R66: a BUF_WRITE in the step of an accepted SUBMIT is part of the message. -/
def Obligations.WriteInTheSubmitStepIsPartOfTheMessage : Prop :=
  ∀ s : State, s.cfg.legal = true → s.mac.state = .idle → s.cfg.mode = .sender → s.pins.rst = false →
    s.pins.bufWe = true → s.pins.submit = true → s.pins.bufAddr < s.cfg.depth → s.pins.submitLen < s.cfg.depth →
    ∃ t, step s = .next t
      ∧ memRead t s.pins.bufAddr = .ok s.pins.bufWdata
      ∧ (∀ a, a ≠ s.pins.bufAddr → memRead t a = memRead s a)
      ∧ t.mac.txLen = s.pins.submitLen ∧ t.mac.txIdx = 0
      ∧ t.mac.state = if s.pins.submitLen = 0 then .sendEsc else .waitFree

/-- 20_memory R66: the message cannot change while it is being sent. That the buffer reads as before after a step with
`rst = 1` too is the model's deduction (log 4). -/
def Obligations.MessageIsFrozenDuringASend : Prop :=
  ∀ s t : State, s.mac.state ≠ .idle → step s = .next t →
    SameBuffer s t ∧ (s.pins.rst = false → message t = message s)

/-- 10_state R31, 70_reset_and_hazards R230: no step changes a parameter. -/
def Obligations.ParametersNeverChange : Prop :=
  ∀ s t : State, step s = .next t → t.cfg = s.cfg

/-- 40_mac R137: every edge of the sequencer, and no other. -/
def Obligations.SequencerMovesOnlyByTheEdgeTable : Prop :=
  ∀ s t : State, Inv s → step s = .next t →
    t.mac.state = if s.pins.rst = true then .idle else edgeTarget s

/-- 40_mac R125, R72: at most one byte is written per step, only with `tx_ready = 1`, and `TXTRACE` gains exactly it. -/
def Obligations.OneTransportByteAndOnlyWhenReady : Prop :=
  ∀ s t : State, step s = .next t →
    t.tr.tx = s.tr.tx ++ t.out.tx.toList
    ∧ (t.out.tx.isSome = true → s.pins.txReady = true ∧ s.pins.rst = false)

/-- 40_mac R129, R130: a byte written is the symbol as it stands in the buffer (WAIT_FREE, on a free sample in the same
step), the Jam (SEND_JAM) or the Escape (SEND_ESC). -/
def Obligations.EveryByteWrittenHasItsSource : Prop :=
  ∀ (s t : State) (b : Byte), step s = .next t → t.out.tx = some b →
    (s.mac.state = .waitFree ∧ s.mac.timer = 0 ∧ s.pins.chanBusy = false ∧ memRead s s.mac.txIdx = .ok b
        ∧ t.tr.samples = s.tr.samples ++ [(.pre, false)])
    ∨ (s.mac.state = .sendJam ∧ b = s.cfg.jamByte ∧ t.tr.samples = s.tr.samples)
    ∨ (s.mac.state = .sendEsc ∧ b = s.cfg.escByte ∧ t.tr.samples = s.tr.samples)

/-- 41_decoder R170, R164: `dec_valid = 1` exactly in the steps that emit, with the byte held at the start of the step;
`dec_notify = 1` exactly in the steps that process the last byte of a burst. -/
def Obligations.DecoderOutputsOfAStep : Prop :=
  ∀ s t : State, step s = .next t →
    (t.out.dec =
      if s.pins.rst = false ∧ s.pins.rxValid = true ∧ s.cfg.mode = .receiver ∧ s.pins.rxData ≠ s.cfg.jamByte
      then s.lookahead else none)
    ∧ (t.out.decNotify = true ↔
        s.pins.rst = false ∧ s.pins.rxValid = true ∧ s.cfg.mode = .receiver ∧ s.pins.rxLast = true)
    ∧ t.tr.decOut = s.tr.decOut ++ t.out.dec.toList

/-- 10_state R29: whenever a byte is held it is the last byte received, and an ordinary one. -/
def Obligations.HeldByteIsTheLastReceived : Prop :=
  ∀ (s t : State) (b : Byte), step s = .next t → t.lookahead = some b → s.pins.rst = false
    ∧ ((s.pins.rxValid = true ∧ s.cfg.mode = .receiver ∧ s.pins.rxData = b ∧ b ≠ s.cfg.jamByte ∧ b ≠ s.cfg.escByte)
      ∨ (¬ (s.pins.rxValid = true ∧ s.cfg.mode = .receiver) ∧ s.lookahead = some b))

/-- 10_state R32, note: `irq_done` and `irq_err` are 1 exactly in the step that sets `st_done`, `st_err`; so never
both (60_exceptions R185). -/
def Obligations.ReportPulsesMarkTheRisingFlags : Prop :=
  ∀ s t : State, Inv s → step s = .next t →
    (t.out.irqDone = true ↔ s.mac.stDone = false ∧ t.mac.stDone = true)
    ∧ (t.out.irqErr = true ↔ s.mac.stErr = false ∧ t.mac.stErr = true)
    ∧ ¬ (t.out.irqDone = true ∧ t.out.irqErr = true)

/-- 60_exceptions R181, R187: `TriesExpired` is raised by SEND_JAM alone, in the step that writes the Jam of a collision
met with `retry_cnt = MAX_TRIES`; `err_code` is 1 then, and otherwise 0 or 1 as `st_err` is. -/
def Obligations.TriesExpiredComesFromSendJamAlone : Prop :=
  ∀ s t : State, step s = .next t →
    (s.mac.stErr = false → t.mac.stErr = true →
      s.mac.state = .sendJam ∧ s.mac.retryCnt = s.cfg.maxTries ∧ s.pins.rst = false
        ∧ t.out.tx = some s.cfg.jamByte ∧ t.mac.errIdx = s.mac.txIdx ∧ t.mac.state = .idle
        ∧ t.mac.retryCnt = s.mac.retryCnt ∧ t.mac.txLen = s.mac.txLen ∧ t.out.irqErr = true)
    ∧ errCode t = (if t.mac.stErr = true then 1 else 0)

/-- 70_reset_and_hazards R239: a send that comes back to IDLE without a reset has exactly one of `st_done` and `st_err`
set; a reset leaves both 0. -/
def Obligations.SendEndsWithExactlyOneReport : Prop :=
  ∀ s t : State, Inv s → s.mac.state ≠ .idle → step s = .next t → t.mac.state = .idle →
    (s.pins.rst = false → (t.mac.stDone = true ∧ t.mac.stErr = false) ∨ (t.mac.stDone = false ∧ t.mac.stErr = true))
    ∧ (s.pins.rst = true → t.mac.stDone = false ∧ t.mac.stErr = false)

/-! Invariants. -/

/-- 10_state R35: the invariant holds after power-up and reset, under every legal configuration; the values of the
reference configuration are the spec's (log 2). -/
def Obligations.InvariantHoldsAfterReset : Prop :=
  (∀ c : Config, c.legal = true → Inv (State.resetWith c)) ∧ Inv State.reset

/-- 10_state R22, R23, R24, R25, R27, R29, R30; 60_exceptions R190: every step keeps the invariant. -/
def Obligations.EveryStepKeepsTheInvariant : Prop :=
  ∀ s t : State, Inv s → step s = .next t → Inv t

/-- 60_exceptions R180, 41_decoder R169: no cycle faults or is refused. -/
def Obligations.NoCycleStops : Prop :=
  ∀ s : State, Inv s → ∃ t, step s = .next t

/-- 40_mac R118: every slot count ever drawn lies in `[0, 2^k]`, with `1 <= k <= MAX_TRIES`. -/
def Obligations.EveryDrawIsInItsRange : Prop :=
  ∀ s t : State, Inv s → step s = .next t →
    (∀ p ∈ s.tr.draws, 1 ≤ p.1 ∧ p.1 ≤ s.cfg.maxTries ∧ p.2 ≤ 2 ^ p.1) →
    (∀ p ∈ t.tr.draws, 1 ≤ p.1 ∧ p.1 ≤ t.cfg.maxTries ∧ p.2 ≤ 2 ^ p.1)

/-- 40_mac R112, R132: an accepted SUBMIT begins a send that has put nothing on the wire yet. -/
def Obligations.AcceptedSubmitBeginsTheSend : Prop :=
  ∀ s t : State, Inv s → s.pins.rst = false → s.pins.submit = true → s.mac.state = .idle → s.cfg.mode = .sender →
    step s = .next t → SendProgress s.tr t ∧ t.mac.txLen = s.pins.submitLen % s.cfg.depth

/-- 40_mac R132, R126, R133: at every step of a send the bytes written, the post samples and the draws are exactly those
that the rule gives, up to the Escape or the Jam of the last collision. -/
def Obligations.SendPutsExactlyTheRuleOnTheWire : Prop :=
  ∀ (tr0 : Traces) (s t : State), Inv s → SendProgress tr0 s → s.mac.state ≠ .idle → s.pins.rst = false →
    step s = .next t → SendProgress tr0 t

/-- 40_mac R134, R133: `rank` falls at every change of `mac_state` during a send and stays in every other step, so a send
changes state only a bounded number of times; what remains are the waits the rule names. -/
def Obligations.SendRankFallsAtEveryMove : Prop :=
  ∀ s t : State, Inv s → s.mac.state ≠ .idle → s.pins.rst = false → step s = .next t →
    (t.mac.state ≠ s.mac.state → rank t < rank s) ∧ (t.mac.state = s.mac.state → rank t = rank s)

/-- 40_mac R128: a wait of `n` ticks in TRANSMITTED or BACKOFF, with `tick = 1` in every step and no reset, ends with step
`n + 1`, in CHECK_COLLISION or WAIT_FREE, and puts no byte on the wire. -/
def Obligations.TimedWaitEndsAfterItsTicks : Prop :=
  ∀ s : State, s.cfg.legal = true → (s.mac.state = .transmitted ∨ s.mac.state = .backoff) →
    s.pins.tick = true → s.pins.rst = false →
    (∀ p ∈ s.stim, p.tick = true ∧ p.rst = false) → s.mac.timer ≤ s.stim.length →
    ∃ t, Sys2Proof.core.run (s.mac.timer + 1) s = .next t
      ∧ t.mac = { s.mac with timer := 0,
                             state := if s.mac.state = .transmitted then .checkCollision else .waitFree }
      ∧ t.tr.tx = s.tr.tx ∧ t.tr.samples = s.tr.samples

/-- 40_mac R127: `SUBMIT 0` writes exactly one byte, the Escape, samples the channel never, and ends with `st_done = 1`
(with the transport ready in the next step, and no reset in either). -/
def Obligations.EmptyMessageIsOneEscape : Prop :=
  ∀ (s : State) (p : Pins) (ps : List Pins), Inv s → s.mac.state = .idle → s.cfg.mode = .sender →
    s.pins.rst = false → s.pins.submit = true → s.pins.submitLen = 0 → s.stim = p :: ps → p.rst = false →
    p.txReady = true →
    ∃ t, Sys2Proof.core.run 2 s = .next t
      ∧ t.tr.tx = s.tr.tx ++ [s.cfg.escByte] ∧ t.tr.samples = s.tr.samples
      ∧ t.mac.stDone = true ∧ t.mac.stErr = false ∧ t.mac.state = .idle

/-! The two agents. -/

/-- 10_state R20, 60_exceptions R186: what the MAC does in a step does not depend on the decoder's state or inputs. -/
def Obligations.MacDoesNotDependOnTheDecoder : Prop :=
  ∀ s₁ s₂ t₁ t₂ : State, s₁.cfg = s₂.cfg → s₁.mac = s₂.mac → s₁.seed = s₂.seed → SameMacInputs s₁.pins s₂.pins →
    step s₁ = .next t₁ → step s₂ = .next t₂ →
    t₁.mac = t₂.mac ∧ t₁.out.tx = t₂.out.tx ∧ t₁.out.evt = t₂.out.evt ∧ t₁.out.irqDone = t₂.out.irqDone
      ∧ t₁.out.irqErr = t₂.out.irqErr

/-- 10_state R20, 60_exceptions R186: what the decoder does in a step does not depend on the MAC's state or inputs. -/
def Obligations.DecoderDoesNotDependOnTheMac : Prop :=
  ∀ s₁ s₂ t₁ t₂ : State, s₁.cfg = s₂.cfg → s₁.lookahead = s₂.lookahead → SameDecoderInputs s₁.pins s₂.pins →
    step s₁ = .next t₁ → step s₂ = .next t₂ →
    t₁.lookahead = t₂.lookahead ∧ t₁.out.dec = t₂.out.dec ∧ t₁.out.decNotify = t₂.out.decNotify

/-! Timing constants. -/

/-- 40_mac R123: `SLOT_TIME` is `5 * S / 4` rounded to the nearest integer, a tie upwards. -/
def Obligations.SlotTimeRoundsTiesUp : Prop :=
  ∀ (c : Config) (S : Nat), S = c.collisionWindow + c.jamSignalTime →
    4 * c.slotTime ≤ 5 * S + 2 ∧ 5 * S ≤ 4 * c.slotTime + 2
    ∧ (S % 4 = 2 → 4 * c.slotTime = 5 * S + 2)
    ∧ c.slotTime = (5 * S + 2) / 4
end

