-- ==== Sys2Proof/Laws/State.lean ====
section
/-! SUPPORT. What each named operation leaves in each field of the state: one lemma per operation and field, true by
rfl, so that no later proof unfolds a record update. -/

namespace Sys2Proof.Machine

/-! clearReports -/

@[simp] theorem clearReports_cfg (s : State) : (clearReports s).cfg = s.cfg := rfl
@[simp] theorem clearReports_mac (s : State) :
    (clearReports s).mac = { s.mac with stDone := false, stErr := false } := rfl
@[simp] theorem clearReports_lookahead (s : State) : (clearReports s).lookahead = s.lookahead := rfl
@[simp] theorem clearReports_pins (s : State) : (clearReports s).pins = s.pins := rfl
@[simp] theorem clearReports_stim (s : State) : (clearReports s).stim = s.stim := rfl
@[simp] theorem clearReports_cycle (s : State) : (clearReports s).cycle = s.cycle := rfl
@[simp] theorem clearReports_seed (s : State) : (clearReports s).seed = s.seed := rfl
@[simp] theorem clearReports_out (s : State) : (clearReports s).out = s.out := rfl
@[simp] theorem clearReports_tr (s : State) : (clearReports s).tr = s.tr := rfl

/-! reportDone -/

@[simp] theorem reportDone_cfg (s : State) : (reportDone s).cfg = s.cfg := rfl
@[simp] theorem reportDone_mac (s : State) : (reportDone s).mac = { s.mac with stDone := true } := rfl
@[simp] theorem reportDone_lookahead (s : State) : (reportDone s).lookahead = s.lookahead := rfl
@[simp] theorem reportDone_pins (s : State) : (reportDone s).pins = s.pins := rfl
@[simp] theorem reportDone_stim (s : State) : (reportDone s).stim = s.stim := rfl
@[simp] theorem reportDone_cycle (s : State) : (reportDone s).cycle = s.cycle := rfl
@[simp] theorem reportDone_seed (s : State) : (reportDone s).seed = s.seed := rfl
@[simp] theorem reportDone_out (s : State) : (reportDone s).out = { s.out with irqDone := true } := rfl
@[simp] theorem reportDone_tr (s : State) : (reportDone s).tr = s.tr := rfl

/-! reportError -/

@[simp] theorem reportError_cfg (i : Nat) (s : State) : (reportError i s).cfg = s.cfg := rfl
@[simp] theorem reportError_mac (i : Nat) (s : State) :
    (reportError i s).mac = { s.mac with stErr := true, errIdx := i } := rfl
@[simp] theorem reportError_lookahead (i : Nat) (s : State) : (reportError i s).lookahead = s.lookahead := rfl
@[simp] theorem reportError_pins (i : Nat) (s : State) : (reportError i s).pins = s.pins := rfl
@[simp] theorem reportError_stim (i : Nat) (s : State) : (reportError i s).stim = s.stim := rfl
@[simp] theorem reportError_cycle (i : Nat) (s : State) : (reportError i s).cycle = s.cycle := rfl
@[simp] theorem reportError_seed (i : Nat) (s : State) : (reportError i s).seed = s.seed := rfl
@[simp] theorem reportError_out (i : Nat) (s : State) : (reportError i s).out = { s.out with irqErr := true } := rfl
@[simp] theorem reportError_tr (i : Nat) (s : State) : (reportError i s).tr = s.tr := rfl

/-! goTo -/

@[simp] theorem goTo_cfg (m : MacState) (s : State) : (goTo m s).cfg = s.cfg := rfl
@[simp] theorem goTo_mac (m : MacState) (s : State) : (goTo m s).mac = { s.mac with state := m } := rfl
@[simp] theorem goTo_lookahead (m : MacState) (s : State) : (goTo m s).lookahead = s.lookahead := rfl
@[simp] theorem goTo_pins (m : MacState) (s : State) : (goTo m s).pins = s.pins := rfl
@[simp] theorem goTo_stim (m : MacState) (s : State) : (goTo m s).stim = s.stim := rfl
@[simp] theorem goTo_cycle (m : MacState) (s : State) : (goTo m s).cycle = s.cycle := rfl
@[simp] theorem goTo_seed (m : MacState) (s : State) : (goTo m s).seed = s.seed := rfl
@[simp] theorem goTo_out (m : MacState) (s : State) : (goTo m s).out = s.out := rfl
@[simp] theorem goTo_tr (m : MacState) (s : State) : (goTo m s).tr = s.tr := rfl

/-! loadTimer -/

@[simp] theorem loadTimer_cfg (n : Nat) (s : State) : (loadTimer n s).cfg = s.cfg := rfl
@[simp] theorem loadTimer_mac (n : Nat) (s : State) : (loadTimer n s).mac = { s.mac with timer := n } := rfl
@[simp] theorem loadTimer_lookahead (n : Nat) (s : State) : (loadTimer n s).lookahead = s.lookahead := rfl
@[simp] theorem loadTimer_pins (n : Nat) (s : State) : (loadTimer n s).pins = s.pins := rfl
@[simp] theorem loadTimer_stim (n : Nat) (s : State) : (loadTimer n s).stim = s.stim := rfl
@[simp] theorem loadTimer_cycle (n : Nat) (s : State) : (loadTimer n s).cycle = s.cycle := rfl
@[simp] theorem loadTimer_seed (n : Nat) (s : State) : (loadTimer n s).seed = s.seed := rfl
@[simp] theorem loadTimer_out (n : Nat) (s : State) : (loadTimer n s).out = s.out := rfl
@[simp] theorem loadTimer_tr (n : Nat) (s : State) : (loadTimer n s).tr = s.tr := rfl

/-! setRetry -/

@[simp] theorem setRetry_cfg (n : Nat) (s : State) : (setRetry n s).cfg = s.cfg := rfl
@[simp] theorem setRetry_mac (n : Nat) (s : State) : (setRetry n s).mac = { s.mac with retryCnt := n } := rfl
@[simp] theorem setRetry_lookahead (n : Nat) (s : State) : (setRetry n s).lookahead = s.lookahead := rfl
@[simp] theorem setRetry_pins (n : Nat) (s : State) : (setRetry n s).pins = s.pins := rfl
@[simp] theorem setRetry_stim (n : Nat) (s : State) : (setRetry n s).stim = s.stim := rfl
@[simp] theorem setRetry_cycle (n : Nat) (s : State) : (setRetry n s).cycle = s.cycle := rfl
@[simp] theorem setRetry_seed (n : Nat) (s : State) : (setRetry n s).seed = s.seed := rfl
@[simp] theorem setRetry_out (n : Nat) (s : State) : (setRetry n s).out = s.out := rfl
@[simp] theorem setRetry_tr (n : Nat) (s : State) : (setRetry n s).tr = s.tr := rfl

/-! setIndex -/

@[simp] theorem setIndex_cfg (n : Nat) (s : State) : (setIndex n s).cfg = s.cfg := rfl
@[simp] theorem setIndex_mac (n : Nat) (s : State) : (setIndex n s).mac = { s.mac with txIdx := n } := rfl
@[simp] theorem setIndex_lookahead (n : Nat) (s : State) : (setIndex n s).lookahead = s.lookahead := rfl
@[simp] theorem setIndex_pins (n : Nat) (s : State) : (setIndex n s).pins = s.pins := rfl
@[simp] theorem setIndex_stim (n : Nat) (s : State) : (setIndex n s).stim = s.stim := rfl
@[simp] theorem setIndex_cycle (n : Nat) (s : State) : (setIndex n s).cycle = s.cycle := rfl
@[simp] theorem setIndex_seed (n : Nat) (s : State) : (setIndex n s).seed = s.seed := rfl
@[simp] theorem setIndex_out (n : Nat) (s : State) : (setIndex n s).out = s.out := rfl
@[simp] theorem setIndex_tr (n : Nat) (s : State) : (setIndex n s).tr = s.tr := rfl

/-! sample -/

@[simp] theorem sample_cfg (k : SampleKind) (s : State) : (sample k s).cfg = s.cfg := rfl
@[simp] theorem sample_mac (k : SampleKind) (s : State) : (sample k s).mac = s.mac := rfl
@[simp] theorem sample_lookahead (k : SampleKind) (s : State) : (sample k s).lookahead = s.lookahead := rfl
@[simp] theorem sample_pins (k : SampleKind) (s : State) : (sample k s).pins = s.pins := rfl
@[simp] theorem sample_stim (k : SampleKind) (s : State) : (sample k s).stim = s.stim := rfl
@[simp] theorem sample_cycle (k : SampleKind) (s : State) : (sample k s).cycle = s.cycle := rfl
@[simp] theorem sample_seed (k : SampleKind) (s : State) : (sample k s).seed = s.seed := rfl
@[simp] theorem sample_out (k : SampleKind) (s : State) : (sample k s).out = s.out := rfl
@[simp] theorem sample_tr (k : SampleKind) (s : State) :
    (sample k s).tr = { s.tr with samples := s.tr.samples ++ [(k, s.pins.chanBusy)] } := rfl

/-! txByte -/

@[simp] theorem txByte_cfg (b : Byte) (s : State) : (txByte b s).cfg = s.cfg := rfl
@[simp] theorem txByte_mac (b : Byte) (s : State) : (txByte b s).mac = s.mac := rfl
@[simp] theorem txByte_lookahead (b : Byte) (s : State) : (txByte b s).lookahead = s.lookahead := rfl
@[simp] theorem txByte_pins (b : Byte) (s : State) : (txByte b s).pins = s.pins := rfl
@[simp] theorem txByte_stim (b : Byte) (s : State) : (txByte b s).stim = s.stim := rfl
@[simp] theorem txByte_cycle (b : Byte) (s : State) : (txByte b s).cycle = s.cycle := rfl
@[simp] theorem txByte_seed (b : Byte) (s : State) : (txByte b s).seed = s.seed := rfl
@[simp] theorem txByte_out (b : Byte) (s : State) : (txByte b s).out = { s.out with tx := some b } := rfl
@[simp] theorem txByte_tr (b : Byte) (s : State) : (txByte b s).tr = { s.tr with tx := s.tr.tx ++ [b] } := rfl

/-! emit -/

@[simp] theorem emit_cfg (c : Byte) (s : State) : (emit c s).cfg = s.cfg := rfl
@[simp] theorem emit_mac (c : Byte) (s : State) : (emit c s).mac = s.mac := rfl
@[simp] theorem emit_lookahead (c : Byte) (s : State) : (emit c s).lookahead = s.lookahead := rfl
@[simp] theorem emit_pins (c : Byte) (s : State) : (emit c s).pins = s.pins := rfl
@[simp] theorem emit_stim (c : Byte) (s : State) : (emit c s).stim = s.stim := rfl
@[simp] theorem emit_cycle (c : Byte) (s : State) : (emit c s).cycle = s.cycle := rfl
@[simp] theorem emit_seed (c : Byte) (s : State) : (emit c s).seed = s.seed := rfl
@[simp] theorem emit_out (c : Byte) (s : State) : (emit c s).out = { s.out with dec := some c } := rfl
@[simp] theorem emit_tr (c : Byte) (s : State) :
    (emit c s).tr = { s.tr with decOut := s.tr.decOut ++ [c], batch := s.tr.batch ++ [c] } := rfl

/-! notify -/

@[simp] theorem notify_cfg (s : State) : (notify s).cfg = s.cfg := rfl
@[simp] theorem notify_mac (s : State) : (notify s).mac = s.mac := rfl
@[simp] theorem notify_lookahead (s : State) : (notify s).lookahead = s.lookahead := rfl
@[simp] theorem notify_pins (s : State) : (notify s).pins = s.pins := rfl
@[simp] theorem notify_stim (s : State) : (notify s).stim = s.stim := rfl
@[simp] theorem notify_cycle (s : State) : (notify s).cycle = s.cycle := rfl
@[simp] theorem notify_seed (s : State) : (notify s).seed = s.seed := rfl
@[simp] theorem notify_out (s : State) : (notify s).out = { s.out with decNotify := true } := rfl
@[simp] theorem notify_tr (s : State) :
    (notify s).tr = { s.tr with batches := s.tr.batches ++ [s.tr.batch], batch := [] } := rfl

/-! driveEvent -/

@[simp] theorem driveEvent_cfg (e : EvtKind) (a : Nat) (s : State) : (driveEvent e a s).cfg = s.cfg := rfl
@[simp] theorem driveEvent_mac (e : EvtKind) (a : Nat) (s : State) : (driveEvent e a s).mac = s.mac := rfl
@[simp] theorem driveEvent_lookahead (e : EvtKind) (a : Nat) (s : State) :
    (driveEvent e a s).lookahead = s.lookahead := rfl
@[simp] theorem driveEvent_pins (e : EvtKind) (a : Nat) (s : State) : (driveEvent e a s).pins = s.pins := rfl
@[simp] theorem driveEvent_stim (e : EvtKind) (a : Nat) (s : State) : (driveEvent e a s).stim = s.stim := rfl
@[simp] theorem driveEvent_cycle (e : EvtKind) (a : Nat) (s : State) : (driveEvent e a s).cycle = s.cycle := rfl
@[simp] theorem driveEvent_seed (e : EvtKind) (a : Nat) (s : State) : (driveEvent e a s).seed = s.seed := rfl
@[simp] theorem driveEvent_out (e : EvtKind) (a : Nat) (s : State) :
    (driveEvent e a s).out = { s.out with evt := some ⟨e, a⟩ } := rfl
@[simp] theorem driveEvent_tr (e : EvtKind) (a : Nat) (s : State) :
    (driveEvent e a s).tr = { s.tr with evts := s.tr.evts ++ [⟨e, a⟩] } := rfl

/-! recordDraw -/

@[simp] theorem recordDraw_cfg (k d : Nat) (s : State) : (recordDraw k d s).cfg = s.cfg := rfl
@[simp] theorem recordDraw_mac (k d : Nat) (s : State) : (recordDraw k d s).mac = s.mac := rfl
@[simp] theorem recordDraw_lookahead (k d : Nat) (s : State) : (recordDraw k d s).lookahead = s.lookahead := rfl
@[simp] theorem recordDraw_pins (k d : Nat) (s : State) : (recordDraw k d s).pins = s.pins := rfl
@[simp] theorem recordDraw_stim (k d : Nat) (s : State) : (recordDraw k d s).stim = s.stim := rfl
@[simp] theorem recordDraw_cycle (k d : Nat) (s : State) : (recordDraw k d s).cycle = s.cycle := rfl
@[simp] theorem recordDraw_seed (k d : Nat) (s : State) : (recordDraw k d s).seed = s.seed := rfl
@[simp] theorem recordDraw_out (k d : Nat) (s : State) : (recordDraw k d s).out = s.out := rfl
@[simp] theorem recordDraw_tr (k d : Nat) (s : State) :
    (recordDraw k d s).tr = { s.tr with draws := s.tr.draws ++ [(k, d)] } := rfl

/-! clearLookahead -/

@[simp] theorem clearLookahead_cfg (s : State) : (clearLookahead s).cfg = s.cfg := rfl
@[simp] theorem clearLookahead_mac (s : State) : (clearLookahead s).mac = s.mac := rfl
@[simp] theorem clearLookahead_lookahead (s : State) : (clearLookahead s).lookahead = none := rfl
@[simp] theorem clearLookahead_pins (s : State) : (clearLookahead s).pins = s.pins := rfl
@[simp] theorem clearLookahead_stim (s : State) : (clearLookahead s).stim = s.stim := rfl
@[simp] theorem clearLookahead_cycle (s : State) : (clearLookahead s).cycle = s.cycle := rfl
@[simp] theorem clearLookahead_seed (s : State) : (clearLookahead s).seed = s.seed := rfl
@[simp] theorem clearLookahead_out (s : State) : (clearLookahead s).out = s.out := rfl
@[simp] theorem clearLookahead_tr (s : State) : (clearLookahead s).tr = s.tr := rfl

/-! holdByte -/

@[simp] theorem holdByte_cfg (b : Byte) (s : State) : (holdByte b s).cfg = s.cfg := rfl
@[simp] theorem holdByte_mac (b : Byte) (s : State) : (holdByte b s).mac = s.mac := rfl
@[simp] theorem holdByte_lookahead (b : Byte) (s : State) : (holdByte b s).lookahead = some b := rfl
@[simp] theorem holdByte_pins (b : Byte) (s : State) : (holdByte b s).pins = s.pins := rfl
@[simp] theorem holdByte_stim (b : Byte) (s : State) : (holdByte b s).stim = s.stim := rfl
@[simp] theorem holdByte_cycle (b : Byte) (s : State) : (holdByte b s).cycle = s.cycle := rfl
@[simp] theorem holdByte_seed (b : Byte) (s : State) : (holdByte b s).seed = s.seed := rfl
@[simp] theorem holdByte_out (b : Byte) (s : State) : (holdByte b s).out = s.out := rfl
@[simp] theorem holdByte_tr (b : Byte) (s : State) : (holdByte b s).tr = s.tr := rfl

/-! raiseTriesExpired -/

@[simp] theorem raiseTriesExpired_cfg (i : Nat) (s : State) : (raiseTriesExpired i s).cfg = s.cfg := rfl
@[simp] theorem raiseTriesExpired_mac (i : Nat) (s : State) :
    (raiseTriesExpired i s).mac = { s.mac with state := .idle, stErr := true, errIdx := i } := rfl
@[simp] theorem raiseTriesExpired_lookahead (i : Nat) (s : State) :
    (raiseTriesExpired i s).lookahead = s.lookahead := rfl
@[simp] theorem raiseTriesExpired_pins (i : Nat) (s : State) : (raiseTriesExpired i s).pins = s.pins := rfl
@[simp] theorem raiseTriesExpired_stim (i : Nat) (s : State) : (raiseTriesExpired i s).stim = s.stim := rfl
@[simp] theorem raiseTriesExpired_cycle (i : Nat) (s : State) : (raiseTriesExpired i s).cycle = s.cycle := rfl
@[simp] theorem raiseTriesExpired_seed (i : Nat) (s : State) : (raiseTriesExpired i s).seed = s.seed := rfl
@[simp] theorem raiseTriesExpired_out (i : Nat) (s : State) :
    (raiseTriesExpired i s).out = { s.out with evt := some ⟨.triesExpired, s.mac.retryCnt⟩, irqErr := true } := rfl
@[simp] theorem raiseTriesExpired_tr (i : Nat) (s : State) :
    (raiseTriesExpired i s).tr = { s.tr with evts := s.tr.evts ++ [⟨.triesExpired, s.mac.retryCnt⟩] } := rfl

/-! acceptSubmit -/

@[simp] theorem acceptSubmit_cfg (n : Nat) (s : State) : (acceptSubmit n s).cfg = s.cfg := rfl
@[simp] theorem acceptSubmit_mac (n : Nat) (s : State) :
    (acceptSubmit n s).mac = { s.mac with state := if n = 0 then .sendEsc else .waitFree, txLen := n, txIdx := 0, retryCnt := 0, timer := 0, stDone := false, stErr := false } := rfl
@[simp] theorem acceptSubmit_lookahead (n : Nat) (s : State) : (acceptSubmit n s).lookahead = s.lookahead := rfl
@[simp] theorem acceptSubmit_pins (n : Nat) (s : State) : (acceptSubmit n s).pins = s.pins := rfl
@[simp] theorem acceptSubmit_stim (n : Nat) (s : State) : (acceptSubmit n s).stim = s.stim := rfl
@[simp] theorem acceptSubmit_cycle (n : Nat) (s : State) : (acceptSubmit n s).cycle = s.cycle := rfl
@[simp] theorem acceptSubmit_seed (n : Nat) (s : State) : (acceptSubmit n s).seed = s.seed := rfl
@[simp] theorem acceptSubmit_out (n : Nat) (s : State) : (acceptSubmit n s).out = s.out := rfl
@[simp] theorem acceptSubmit_tr (n : Nat) (s : State) : (acceptSubmit n s).tr = s.tr := rfl

/-! applyReset -/

@[simp] theorem applyReset_cfg (s : State) : (applyReset s).cfg = s.cfg := rfl
@[simp] theorem applyReset_mac (s : State) : (applyReset s).mac = Mac.afterReset s.mac.txbuf := rfl
@[simp] theorem applyReset_lookahead (s : State) : (applyReset s).lookahead = none := rfl
@[simp] theorem applyReset_pins (s : State) : (applyReset s).pins = s.pins := rfl
@[simp] theorem applyReset_stim (s : State) : (applyReset s).stim = s.stim := rfl
@[simp] theorem applyReset_cycle (s : State) : (applyReset s).cycle = s.cycle := rfl
@[simp] theorem applyReset_seed (s : State) : (applyReset s).seed = s.seed := rfl
@[simp] theorem applyReset_out (s : State) : (applyReset s).out = Outputs.quiet := rfl
@[simp] theorem applyReset_tr (s : State) : (applyReset s).tr = s.tr := rfl

/-! beginCycle -/

@[simp] theorem beginCycle_cfg (s : State) : (beginCycle s).cfg = s.cfg := rfl
@[simp] theorem beginCycle_mac (s : State) : (beginCycle s).mac = s.mac := rfl
@[simp] theorem beginCycle_lookahead (s : State) : (beginCycle s).lookahead = s.lookahead := rfl
@[simp] theorem beginCycle_pins (s : State) : (beginCycle s).pins = s.pins := rfl
@[simp] theorem beginCycle_stim (s : State) : (beginCycle s).stim = s.stim := rfl
@[simp] theorem beginCycle_cycle (s : State) : (beginCycle s).cycle = s.cycle := rfl
@[simp] theorem beginCycle_seed (s : State) : (beginCycle s).seed = s.seed := rfl
@[simp] theorem beginCycle_out (s : State) : (beginCycle s).out = Outputs.quiet := rfl
@[simp] theorem beginCycle_tr (s : State) : (beginCycle s).tr = s.tr := rfl

/-! endCycle -/

@[simp] theorem endCycle_cfg (s : State) : (endCycle s).cfg = s.cfg := rfl
@[simp] theorem endCycle_mac (s : State) : (endCycle s).mac = s.mac := rfl
@[simp] theorem endCycle_lookahead (s : State) : (endCycle s).lookahead = s.lookahead := rfl
@[simp] theorem endCycle_pins (s : State) : (endCycle s).pins = nextPins s := rfl
@[simp] theorem endCycle_stim (s : State) : (endCycle s).stim = s.stim.tail := rfl
@[simp] theorem endCycle_cycle (s : State) : (endCycle s).cycle = s.cycle + 1 := rfl
@[simp] theorem endCycle_seed (s : State) : (endCycle s).seed = s.seed := rfl
@[simp] theorem endCycle_out (s : State) : (endCycle s).out = s.out := rfl
@[simp] theorem endCycle_tr (s : State) : (endCycle s).tr = s.tr := rfl

/-! countTick: only the timer may change. -/

@[simp] theorem countTick_cfg (s : State) : (countTick s).cfg = s.cfg := by unfold countTick; split <;> rfl
@[simp] theorem countTick_mac (s : State) :
    (countTick s).mac = { s.mac with timer := if s.pins.tick then s.mac.timer - 1 else s.mac.timer } := by
  unfold countTick; split <;> rfl
@[simp] theorem countTick_lookahead (s : State) : (countTick s).lookahead = s.lookahead := by unfold countTick; split <;> rfl
@[simp] theorem countTick_pins (s : State) : (countTick s).pins = s.pins := by unfold countTick; split <;> rfl
@[simp] theorem countTick_stim (s : State) : (countTick s).stim = s.stim := by unfold countTick; split <;> rfl
@[simp] theorem countTick_cycle (s : State) : (countTick s).cycle = s.cycle := by unfold countTick; split <;> rfl
@[simp] theorem countTick_seed (s : State) : (countTick s).seed = s.seed := by unfold countTick; split <;> rfl
@[simp] theorem countTick_out (s : State) : (countTick s).out = s.out := by unfold countTick; split <;> rfl
@[simp] theorem countTick_tr (s : State) : (countTick s).tr = s.tr := by unfold countTick; split <;> rfl

/-! flushPending: only the decoder's output and traces may change. -/

@[simp] theorem flushPending_cfg (s : State) : (flushPending s).cfg = s.cfg := by unfold flushPending; split <;> rfl
@[simp] theorem flushPending_mac (s : State) : (flushPending s).mac = s.mac := by unfold flushPending; split <;> rfl
@[simp] theorem flushPending_lookahead (s : State) : (flushPending s).lookahead = s.lookahead := by unfold flushPending; split <;> rfl
@[simp] theorem flushPending_pins (s : State) : (flushPending s).pins = s.pins := by unfold flushPending; split <;> rfl
@[simp] theorem flushPending_stim (s : State) : (flushPending s).stim = s.stim := by unfold flushPending; split <;> rfl
@[simp] theorem flushPending_cycle (s : State) : (flushPending s).cycle = s.cycle := by unfold flushPending; split <;> rfl
@[simp] theorem flushPending_seed (s : State) : (flushPending s).seed = s.seed := by unfold flushPending; split <;> rfl
@[simp] theorem flushPending_out (s : State) :
    (flushPending s).out = { s.out with dec := s.lookahead.or s.out.dec } := by
  unfold flushPending; split <;> simp_all
@[simp] theorem flushPending_tr (s : State) :
    (flushPending s).tr =
      { s.tr with decOut := s.tr.decOut ++ s.lookahead.toList, batch := s.tr.batch ++ s.lookahead.toList } := by
  unfold flushPending; split <;> simp_all

/-! Two states with the same fields are equal. -/

theorem State.eq_of_fields {s t : State} (h1 : s.cfg = t.cfg) (h2 : s.mac = t.mac) (h3 : s.lookahead = t.lookahead)
    (h4 : s.pins = t.pins) (h5 : s.stim = t.stim) (h6 : s.cycle = t.cycle) (h7 : s.seed = t.seed)
    (h8 : s.out = t.out) (h9 : s.tr = t.tr) : s = t := by
  cases s; cases t; simp_all

/-! The level outputs (40_mac R125). -/

theorem submitReady_iff (s : State) : submitReady s = true ↔ s.mac.state = .idle ∧ s.cfg.mode = .sender := by
  simp [submitReady]

theorem macBusy_iff (s : State) : macBusy s = true ↔ s.mac.state ≠ .idle := by simp [macBusy]

end Sys2Proof.Machine
end

