-- ==== Sys2Proof/Laws/Memory.lean ====
section
/-! SUPPORT. The buffer: read after write, and that every operation keeps the canonical form and the index range. -/

namespace Sys2Proof.Machine

theorem Memory.read_write_same (m : List Host.Cell) (a : Nat) (v : Byte) :
    Memory.read (Memory.write m a v) a = some v := by
  induction m with
  | nil => simp [Memory.write, Memory.read]
  | cons e m ih =>
    simp only [Memory.write]
    split
    · simp [Memory.read]
    · split
      · simp [Memory.read]
      · rename_i h
        simp [Memory.read, Ne.symm h, ih]

theorem Memory.read_write_other (m : List Host.Cell) {a b : Nat} (v : Byte) (h : b ≠ a) :
    Memory.read (Memory.write m a v) b = Memory.read m b := by
  induction m with
  | nil => simp [Memory.write, Memory.read, Ne.symm h]
  | cons e m ih =>
    simp only [Memory.write]
    split
    · simp [Memory.read, Ne.symm h]
    · split
      · rename_i h2
        simp [Memory.read, Ne.symm h, ← h2]
      · simp [Memory.read, ih]

theorem Memory.risingFrom_write (m : List Host.Cell) (lo a : Nat) (v : Byte) (h : Memory.risingFrom lo m = true)
    (ha : lo < a) : Memory.risingFrom lo (Memory.write m a v) = true := by
  induction m generalizing lo with
  | nil => simpa [Memory.write, Memory.risingFrom] using ha
  | cons e m ih =>
    simp only [Memory.risingFrom, Bool.and_eq_true, decide_eq_true_eq] at h
    simp only [Memory.write]
    split
    · simp [Memory.risingFrom, *]
    · split
      · rename_i h2
        simp [Memory.risingFrom, h2, h]
      · simp only [Memory.risingFrom, Bool.and_eq_true, decide_eq_true_eq]
        exact ⟨h.1, ih e.1 h.2 (by omega)⟩

/-- A write keeps the canonical form. -/
theorem Memory.wf_write (m : List Host.Cell) (a : Nat) (v : Byte) (h : Memory.wf m = true) :
    Memory.wf (Memory.write m a v) = true := by
  cases m with
  | nil => rfl
  | cons e m =>
    simp only [Memory.wf] at h
    simp only [Memory.write]
    split
    · simp [Memory.wf, Memory.risingFrom, *]
    · split
      · rename_i h2
        simpa [Memory.wf, h2] using h
      · exact Memory.risingFrom_write m e.1 a v h (by omega)

/-- A write lists no index but the old ones and its own. -/
theorem Memory.mem_write {m : List Host.Cell} {a : Nat} {v : Byte} {e : Host.Cell} (h : e ∈ Memory.write m a v) :
    e ∈ m ∨ e = (a, v) := by
  induction m with
  | nil => simpa [Memory.write] using h
  | cons d m ih =>
    simp only [Memory.write] at h
    split at h
    · simp only [List.mem_cons] at h ⊢
      tauto
    · split at h
      · simp only [List.mem_cons] at h ⊢
        tauto
      · simp only [List.mem_cons] at h ⊢
        rcases h with h | h
        · exact .inl (.inl h)
        · rcases ih h with h | h
          · exact .inl (.inr h)
          · exact .inr h

/-- Two states with the same buffer, parameters and power-up read alike. -/
theorem memRead_congr {s t : State} (h1 : t.cfg = s.cfg) (h2 : t.mac.txbuf = s.mac.txbuf) (h3 : t.seed = s.seed)
    (a : Nat) : memRead t a = memRead s a := by
  simp [memRead, unwrittenByte, h1, h2, h3]

theorem bufferByte_congr {s t : State} (h2 : t.mac.txbuf = s.mac.txbuf) (h3 : t.seed = s.seed)
    (a : Nat) : bufferByte t a = bufferByte s a := by
  simp [bufferByte, unwrittenByte, h2, h3]

/-- Inside the buffer a read answers the entry's byte. -/
theorem memRead_inside {s : State} {a : Nat} (h : a < s.cfg.depth) : memRead s a = .ok (bufferByte s a) := by
  simp [memRead, bufferByte, h]

/-- A read that answers was inside the buffer. -/
theorem memRead_ok {s : State} {a : Nat} {b : Byte} (h : memRead s a = .ok b) :
    a < s.cfg.depth ∧ b = bufferByte s a := by
  unfold memRead at h
  split at h
  · exact ⟨‹_›, by simpa [bufferByte] using h.symm⟩
  · cases h

/-- Inside the buffer a write completes, and changes the buffer alone. -/
theorem memWrite_inside {s : State} {a : Nat} (v : Byte) (h : a < s.cfg.depth) :
    memWrite s a v = .next { s with mac.txbuf := Memory.write s.mac.txbuf a v } := by
  simp [memWrite, h]

/-- A write that goes on was inside the buffer. -/
theorem memWrite_next {s t : State} {a : Nat} {v : Byte} (h : memWrite s a v = .next t) :
    a < s.cfg.depth ∧ t = { s with mac.txbuf := Memory.write s.mac.txbuf a v } := by
  unfold memWrite at h
  split at h
  · exact ⟨‹_›, by cases h; rfl⟩
  · cases h

end Sys2Proof.Machine
end

