-- ==== Sys2Proof/Laws/Step.lean ====
section
/-! SUPPORT. Sequencing, and what one cycle can do: said once, so that no proof about a step unfolds it. -/

namespace Sys2Proof.Machine

@[simp] theorem andThen_next (s : State) (f : State → Result) : andThen (.next s) f = f s := rfl
@[simp] theorem andThen_fault (e : Fault) (f : State → Result) : andThen (.fault e) f = .fault e := rfl
@[simp] theorem andThen_refused (e : Refusal) (f : State → Result) : andThen (.refused e) f = .refused e := rfl

@[simp] theorem andThen_next_right (r : Result) : andThen r (fun s => .next s) = r := by cases r <;> rfl

theorem andThen_eq_next {r : Result} {f : State → Result} {t : State} :
    andThen r f = .next t ↔ ∃ u, r = .next u ∧ f u = .next t := by
  cases r <;> simp [andThen]

/-- A received byte runs the instruction of its class (41_decoder R160). -/
theorem receiveByte_eq_exec (b : Byte) (s : State) : receiveByte b s = exec (classify s.cfg b) s := by
  unfold receiveByte classify
  split
  · rfl
  · split <;> rfl

/-- The sequencer's code decodes to the instruction of its state. -/
theorem decode_state_code (c : Config) (m : MacState) : decode c (.seqState m.code) = .op m.instr := by
  cases m <;> rfl

/-- What the host's write group does in a cycle. -/
def bufferPhase (s : State) : Result :=
  if s.pins.bufWe then exec (.bufWrite (s.pins.bufAddr % s.cfg.depth) s.pins.bufWdata) s else .next s

/-- What the submit group does in a cycle. -/
def submitPhase (s : State) : Result :=
  if s.pins.submit then exec (.submit (s.pins.submitLen % s.cfg.depth)) s else .next s

/-- What the receive group does in a cycle. -/
def receivePhase (s : State) : Result :=
  if s.pins.rxValid then exec (.rxByte s.pins.rxData s.pins.rxLast) s else .next s

/-- The byte's own effect on the decoder, as a plain function. -/
def receivedState (data : Byte) (last : Bool) (s : State) : State :=
  let t := if data = s.cfg.jamByte then clearLookahead s
    else if data = s.cfg.escByte then clearLookahead (flushPending s)
    else holdByte data (flushPending s)
  if last then notify t else t

theorem exec_rxByte (data : Byte) (last : Bool) (s : State) :
    exec (.rxByte data last) s =
      .next (if s.cfg.mode = .receiver then receivedState data last s else s) := by
  simp only [exec, execRxByte, receiveByte, receivedState]
  by_cases hm : s.cfg.mode = .receiver
  · simp only [hm, if_true]
    split
    · rfl
    · split <;> rfl
  · simp [hm]

/-- The buffer after the host's write group. -/
def bufferAfter (s : State) : List Host.Cell :=
  if s.pins.bufWe = true ∧ s.mac.state = .idle then
    Memory.write s.mac.txbuf (s.pins.bufAddr % s.cfg.depth) s.pins.bufWdata
  else s.mac.txbuf

/-- The state after the host's write group. -/
def writtenState (s : State) : State := { s with mac.txbuf := bufferAfter s }

@[simp] theorem writtenState_cfg (s : State) : (writtenState s).cfg = s.cfg := rfl
@[simp] theorem writtenState_mac (s : State) : (writtenState s).mac = { s.mac with txbuf := bufferAfter s } := rfl
@[simp] theorem writtenState_lookahead (s : State) : (writtenState s).lookahead = s.lookahead := rfl
@[simp] theorem writtenState_pins (s : State) : (writtenState s).pins = s.pins := rfl
@[simp] theorem writtenState_stim (s : State) : (writtenState s).stim = s.stim := rfl
@[simp] theorem writtenState_cycle (s : State) : (writtenState s).cycle = s.cycle := rfl
@[simp] theorem writtenState_seed (s : State) : (writtenState s).seed = s.seed := rfl
@[simp] theorem writtenState_out (s : State) : (writtenState s).out = s.out := rfl
@[simp] theorem writtenState_tr (s : State) : (writtenState s).tr = s.tr := rfl

theorem depth_pos (c : Config) : 0 < c.depth := Nat.two_pow_pos _

theorem bufferPhase_eq (s : State) : bufferPhase s = .next (writtenState s) := by
  unfold bufferPhase writtenState bufferAfter
  by_cases hw : s.pins.bufWe = true
  · by_cases hi : s.mac.state = .idle
    · simp [hw, hi, exec, execBufWrite, memWrite, Nat.mod_lt _ (depth_pos s.cfg)]
    · simp [hw, hi, exec, execBufWrite]
  · simp [hw]

/-- The state after the submit group. -/
def submittedState (s : State) : State :=
  if s.pins.submit = true ∧ s.mac.state = .idle ∧ s.cfg.mode = .sender then
    acceptSubmit (s.pins.submitLen % s.cfg.depth) s
  else s

theorem submitPhase_eq (s : State) : submitPhase s = .next (submittedState s) := by
  unfold submitPhase submittedState
  by_cases hw : s.pins.submit = true
  · by_cases hi : s.mac.state = .idle ∧ s.cfg.mode = .sender
    · simp [hw, hi, exec, execSubmit, Nat.mod_lt _ (depth_pos s.cfg)]
    · simp [hw, hi, exec, execSubmit]
  · simp [hw]

/-- The state after the receive group. -/
def heardState (s : State) : State :=
  if s.pins.rxValid = true ∧ s.cfg.mode = .receiver then receivedState s.pins.rxData s.pins.rxLast s else s

theorem receivePhase_eq (s : State) : receivePhase s = .next (heardState s) := by
  unfold receivePhase heardState
  by_cases hw : s.pins.rxValid = true
  · simp only [hw, if_true, exec_rxByte, true_and]
  · simp [hw]

/-- The state of a cycle without reset when the sequencer's rule is about to run. -/
def beforeSequencer (s : State) : State :=
  heardState (submittedState (writtenState (beginCycle s)))

@[simp] theorem submittedState_cfg (s : State) : (submittedState s).cfg = s.cfg := by
  unfold submittedState; split <;> rfl
@[simp] theorem submittedState_lookahead (s : State) : (submittedState s).lookahead = s.lookahead := by
  unfold submittedState; split <;> rfl
@[simp] theorem submittedState_pins (s : State) : (submittedState s).pins = s.pins := by
  unfold submittedState; split <;> rfl
@[simp] theorem submittedState_stim (s : State) : (submittedState s).stim = s.stim := by
  unfold submittedState; split <;> rfl
@[simp] theorem submittedState_cycle (s : State) : (submittedState s).cycle = s.cycle := by
  unfold submittedState; split <;> rfl
@[simp] theorem submittedState_seed (s : State) : (submittedState s).seed = s.seed := by
  unfold submittedState; split <;> rfl
@[simp] theorem submittedState_out (s : State) : (submittedState s).out = s.out := by
  unfold submittedState; split <;> rfl
@[simp] theorem submittedState_tr (s : State) : (submittedState s).tr = s.tr := by
  unfold submittedState; split <;> rfl

theorem submittedState_mac (s : State) :
    (submittedState s).mac =
      if s.pins.submit = true ∧ s.mac.state = .idle ∧ s.cfg.mode = .sender then
        (acceptSubmit (s.pins.submitLen % s.cfg.depth) s).mac
      else s.mac := by
  unfold submittedState; split <;> rfl

@[simp] theorem receivedState_cfg (b : Byte) (l : Bool) (s : State) : (receivedState b l s).cfg = s.cfg := by
  simp only [receivedState]; repeat' split
  all_goals simp
@[simp] theorem receivedState_mac (b : Byte) (l : Bool) (s : State) : (receivedState b l s).mac = s.mac := by
  simp only [receivedState]; repeat' split
  all_goals simp
@[simp] theorem receivedState_pins (b : Byte) (l : Bool) (s : State) : (receivedState b l s).pins = s.pins := by
  simp only [receivedState]; repeat' split
  all_goals simp
@[simp] theorem receivedState_stim (b : Byte) (l : Bool) (s : State) : (receivedState b l s).stim = s.stim := by
  simp only [receivedState]; repeat' split
  all_goals simp
@[simp] theorem receivedState_cycle (b : Byte) (l : Bool) (s : State) : (receivedState b l s).cycle = s.cycle := by
  simp only [receivedState]; repeat' split
  all_goals simp
@[simp] theorem receivedState_seed (b : Byte) (l : Bool) (s : State) : (receivedState b l s).seed = s.seed := by
  simp only [receivedState]; repeat' split
  all_goals simp

@[simp] theorem heardState_cfg (s : State) : (heardState s).cfg = s.cfg := by
  unfold heardState; split <;> simp
@[simp] theorem heardState_mac (s : State) : (heardState s).mac = s.mac := by
  unfold heardState; split <;> simp
@[simp] theorem heardState_pins (s : State) : (heardState s).pins = s.pins := by
  unfold heardState; split <;> simp
@[simp] theorem heardState_stim (s : State) : (heardState s).stim = s.stim := by
  unfold heardState; split <;> simp
@[simp] theorem heardState_cycle (s : State) : (heardState s).cycle = s.cycle := by
  unfold heardState; split <;> simp
@[simp] theorem heardState_seed (s : State) : (heardState s).seed = s.seed := by
  unfold heardState; split <;> simp

@[simp] theorem beforeSequencer_cfg (s : State) : (beforeSequencer s).cfg = s.cfg := by
  simp [beforeSequencer]
@[simp] theorem beforeSequencer_pins (s : State) : (beforeSequencer s).pins = s.pins := by
  simp [beforeSequencer]
@[simp] theorem beforeSequencer_stim (s : State) : (beforeSequencer s).stim = s.stim := by
  simp [beforeSequencer]
@[simp] theorem beforeSequencer_cycle (s : State) : (beforeSequencer s).cycle = s.cycle := by
  simp [beforeSequencer]
@[simp] theorem beforeSequencer_seed (s : State) : (beforeSequencer s).seed = s.seed := by
  simp [beforeSequencer]

/-- Before the sequencer's rule runs, no MAC output is driven and no MAC trace has grown. -/
theorem beforeSequencer_macOutputs (s : State) :
    (beforeSequencer s).out.tx = none ∧ (beforeSequencer s).out.evt = none
    ∧ (beforeSequencer s).out.irqDone = false ∧ (beforeSequencer s).out.irqErr = false
    ∧ (beforeSequencer s).tr.tx = s.tr.tx ∧ (beforeSequencer s).tr.samples = s.tr.samples
    ∧ (beforeSequencer s).tr.draws = s.tr.draws ∧ (beforeSequencer s).tr.evts = s.tr.evts := by
  unfold beforeSequencer heardState receivedState
  repeat' split
  all_goals simp [Outputs.quiet]

/-- While a send is in progress no port operation touches the MAC's registers (20_memory R66). -/
theorem beforeSequencer_mac_busy {s : State} (h : s.mac.state ≠ .idle) : (beforeSequencer s).mac = s.mac := by
  simp [beforeSequencer, submittedState_mac, bufferAfter, h]

/-- Whatever the host does in a cycle, the MAC's part of the state does not depend on the decoder. -/
theorem beforeSequencer_mac (s : State) :
    (beforeSequencer s).mac = (submittedState (writtenState (beginCycle s))).mac := by
  simp [beforeSequencer]


/-! The receive group's effect on the decoder, in terms of the decoder as a function on bytes (41_decoder R167). -/

theorem receivedState_decoder (b : Byte) (last : Bool) (s : State) :
    (receivedState b last s).lookahead = (decodeByte s.cfg s.lookahead b).1
    ∧ (receivedState b last s).out.dec = (decodeByte s.cfg s.lookahead b).2.head?.or s.out.dec
    ∧ (receivedState b last s).out.decNotify = (last || s.out.decNotify)
    ∧ (receivedState b last s).tr.decOut = s.tr.decOut ++ (decodeByte s.cfg s.lookahead b).2 := by
  unfold receivedState decodeByte
  split
  · cases last <;> simp
  · split <;> cases last <;> cases hl : s.lookahead <;> simp [hl]

/-- A byte reaches the decoder: `rx_valid = 1` in RECEIVER mode (41_decoder R160, R165). -/
def hears (s : State) : Prop := s.pins.rxValid = true ∧ s.cfg.mode = .receiver

theorem heardState_hears {s : State} (h : hears s) :
    heardState s = receivedState s.pins.rxData s.pins.rxLast s := if_pos h

theorem heardState_deaf {s : State} (h : ¬ hears s) : heardState s = s := if_neg h

/-- The decoder before the sequencer's rule, in a cycle that brings it a byte. -/
theorem beforeSequencer_hears {s : State} (h : hears s) :
    (beforeSequencer s).lookahead = (decodeByte s.cfg s.lookahead s.pins.rxData).1
    ∧ (beforeSequencer s).out.dec = (decodeByte s.cfg s.lookahead s.pins.rxData).2.head?
    ∧ (beforeSequencer s).out.decNotify = s.pins.rxLast
    ∧ (beforeSequencer s).tr.decOut = s.tr.decOut ++ (decodeByte s.cfg s.lookahead s.pins.rxData).2 := by
  unfold beforeSequencer
  rw [heardState_hears (by simpa [hears] using h)]
  simp [receivedState_decoder, Outputs.quiet]

/-- The decoder before the sequencer's rule, in a cycle that brings it none. -/
theorem beforeSequencer_deaf {s : State} (h : ¬ hears s) :
    (beforeSequencer s).lookahead = s.lookahead ∧ (beforeSequencer s).out.dec = none
    ∧ (beforeSequencer s).out.decNotify = false ∧ (beforeSequencer s).tr.decOut = s.tr.decOut := by
  unfold beforeSequencer
  rw [heardState_deaf (by simpa [hears] using h)]
  simp [Outputs.quiet]

/-- A cycle with `rst = 1` is the reset and nothing else. -/
theorem runCycle_reset {s : State} (h : s.pins.rst = true) :
    runCycle s = .next (endCycle (applyReset (beginCycle s))) := by
  simp [runCycle, cycleWords, h, runWords, runWord, decode, exec, execReset]

/-- A cycle without reset: the port operations, then the rule of the state the cycle began in. -/
theorem runCycle_no_reset {s : State} (h : s.pins.rst = false) :
    runCycle s = andThen (exec s.mac.state.instr (beforeSequencer s)) fun t => .next (endCycle t) := by
  have h1 : ∀ u, runWord (.bufPort u.pins.bufWe u.pins.bufAddr u.pins.bufWdata) u = bufferPhase u := by
    intro u; unfold runWord bufferPhase; cases hb : u.pins.bufWe <;> simp [decode]
  have h2 : ∀ u, runWord (.submitPort u.pins.submit u.pins.submitLen) u = submitPhase u := by
    intro u; unfold runWord submitPhase; cases hb : u.pins.submit <;> simp [decode]
  have h3 : ∀ u, runWord (.rxPort u.pins.rxValid u.pins.rxData u.pins.rxLast) u = receivePhase u := by
    intro u; unfold runWord receivePhase; cases hb : u.pins.rxValid <;> simp [decode]
  have h4 : ∀ (m : MacState) u, runWord (.seqState m.code) u = exec m.instr u := by
    intro m u; simp [runWord, decode_state_code]
  have e1 := h1 (beginCycle s)
  rw [bufferPhase_eq] at e1
  have e2 := h2 (writtenState (beginCycle s))
  rw [submitPhase_eq] at e2
  have e3 := h3 (submittedState (writtenState (beginCycle s)))
  rw [receivePhase_eq] at e3
  simp only [submittedState_pins, writtenState_pins, beginCycle_pins] at e1 e2 e3
  simp only [runCycle, cycleWords, h, Bool.false_eq_true, if_false, runWords, e1, e2, e3, h4, andThen_next,
    andThen_next_right, beforeSequencer]

/-- What a step that goes on did: a reset cycle, or the port operations and the sequencer's rule. -/
theorem step_next {s t : State} (h : step s = .next t) :
    s.cfg.legal = true ∧
      ((s.pins.rst = true ∧ t = endCycle (applyReset (beginCycle s))) ∨
       (s.pins.rst = false ∧ ∃ u, exec s.mac.state.instr (beforeSequencer s) = .next u ∧ t = endCycle u)) := by
  unfold step at h
  split at h
  · refine ⟨‹_›, ?_⟩
    cases hr : s.pins.rst with
    | true => rw [runCycle_reset hr] at h; cases h; exact .inl ⟨rfl, rfl⟩
    | false =>
      rw [runCycle_no_reset hr, andThen_eq_next] at h
      obtain ⟨u, hu, ht⟩ := h
      cases ht
      exact .inr ⟨rfl, u, hu, rfl⟩
  · cases h

end Sys2Proof.Machine
end

