-- ==== Sys2Proof/Laws/Sequencer.lean ====
section
/-! SUPPORT. What each rule of the sequencer can do: one inversion lemma per state, and what all rules leave alone. -/

namespace Sys2Proof.Machine

/-- A Boolean test that failed. -/
theorem eq_false_of_ne {b : Bool} (h : ¬ b = true) : b = false := by simpa using h

theorem exec_waitFree_next {u v : State} (h : exec .waitFree u = .next v) :
    (u.mac.timer ≠ 0 ∧ v = countTick u)
    ∨ (u.mac.timer = 0 ∧ ¬ (u.pins.chanBusy = false ∧ u.pins.txReady = true)
        ∧ v = loadTimer u.cfg.pollInterval (sample .pre u))
    ∨ (u.mac.timer = 0 ∧ u.pins.chanBusy = false ∧ u.pins.txReady = true ∧ u.mac.txIdx < u.cfg.depth
        ∧ v = driveEvent .symbolTx (symbolArg u.cfg (currentSymbol u))
            (goTo .transmitted (loadTimer u.cfg.collisionWindow (txByte (currentSymbol u) (sample .pre u))))) := by
  simp only [exec, execWaitFree, symbolIndex] at h
  split at h
  · cases h; exact .inl ⟨‹_›, rfl⟩
  · rename_i ht
    have ht : u.mac.timer = 0 := by simpa using ht
    split at h
    · rename_i hc
      split at h
      · rename_i b hb
        obtain ⟨hlt, rfl⟩ := memRead_ok hb
        cases h
        exact .inr (.inr ⟨ht, hc.1, hc.2, hlt, rfl⟩)
      · cases h
    · rename_i hc
      cases h; exact .inr (.inl ⟨ht, hc, rfl⟩)

theorem exec_transmitted_next {u v : State} (h : exec .transmitted u = .next v) :
    (u.mac.timer ≠ 0 ∧ v = countTick u) ∨ (u.mac.timer = 0 ∧ v = goTo .checkCollision u) := by
  simp only [exec, execTransmitted] at h
  split at h
  · cases h; exact .inl ⟨‹_›, rfl⟩
  · rename_i ht; cases h; exact .inr ⟨by simpa using ht, rfl⟩

theorem exec_checkCollision_next {u v : State} (h : exec .checkCollision u = .next v) :
    (u.pins.chanBusy = true ∧ v = driveEvent .collision u.mac.retryCnt (goTo .sendJam (sample .post u)))
    ∨ (u.pins.chanBusy = false ∧ v = goTo .success (sample .post u)) := by
  simp only [exec, execCheckCollision] at h
  split at h
  · cases h; exact .inl ⟨‹_›, rfl⟩
  · rename_i hc; cases h; exact .inr ⟨eq_false_of_ne hc, rfl⟩

theorem exec_success_next {u v : State} (h : exec .success u = .next v) :
    v = driveEvent .delivered u.mac.retryCnt
      (goTo (if u.mac.txIdx + 1 = u.mac.txLen then .sendEsc else .waitFree)
        (setIndex (u.mac.txIdx + 1) (setRetry 0 u))) := by
  cases h; rfl

theorem exec_sendJam_next {u v : State} (h : exec .sendJam u = .next v) :
    (u.pins.txReady = false ∧ v = u)
    ∨ (u.pins.txReady = true ∧ u.mac.retryCnt ≠ u.cfg.maxTries
        ∧ v = goTo .backoffDraw (setRetry (u.mac.retryCnt + 1) (txByte u.cfg.jamByte u)))
    ∨ (u.pins.txReady = true ∧ u.mac.retryCnt = u.cfg.maxTries
        ∧ v = raiseTriesExpired u.mac.txIdx (txByte u.cfg.jamByte u)) := by
  simp only [exec, execSendJam] at h
  split at h
  · split at h
    · cases h; exact .inr (.inr ⟨‹_›, ‹_›, rfl⟩)
    · cases h; exact .inr (.inl ⟨‹_›, ‹_›, rfl⟩)
  · rename_i hc; cases h; exact .inl ⟨eq_false_of_ne hc, rfl⟩

theorem exec_backoffDraw_next {u v : State} (h : exec .backoffDraw u = .next v) :
    (2 ^ drawExponent u < drawCandidate u ∧ v = u)
    ∨ (drawCandidate u ≤ 2 ^ drawExponent u
        ∧ v = driveEvent .backoff (drawCandidate u) (goTo .backoff
            (recordDraw (drawExponent u) (drawCandidate u)
              (loadTimer (drawCandidate u * u.cfg.slotTime) { u with mac.slotCnt := drawCandidate u })))) := by
  simp only [exec, execBackoffDraw] at h
  split at h
  · cases h; exact .inr ⟨‹_›, rfl⟩
  · rename_i hc; cases h; exact .inl ⟨by omega, rfl⟩

theorem exec_backoff_next {u v : State} (h : exec .backoff u = .next v) :
    (u.mac.timer ≠ 0 ∧ v = countTick u) ∨ (u.mac.timer = 0 ∧ v = goTo .waitFree u) := by
  simp only [exec, execBackoff] at h
  split at h
  · cases h; exact .inl ⟨‹_›, rfl⟩
  · rename_i ht; cases h; exact .inr ⟨by simpa using ht, rfl⟩

theorem exec_sendEsc_next {u v : State} (h : exec .sendEsc u = .next v) :
    (u.pins.txReady = false ∧ v = u)
    ∨ (u.pins.txReady = true
        ∧ v = driveEvent .done 0 (goTo .idle (reportDone (txByte u.cfg.escByte u)))) := by
  simp only [exec, execSendEsc] at h
  split at h
  · cases h; exact .inr ⟨‹_›, rfl⟩
  · rename_i hc; cases h; exact .inl ⟨eq_false_of_ne hc, rfl⟩

/-- Whatever the sequencer's state, its rule leaves the parameters, the inputs, the model's counters, the buffer and the
decoder alone (10_state R20). -/
theorem exec_instr_frame {m : MacState} {u v : State} (h : exec m.instr u = .next v) :
    SameEnvironment u v ∧ SameDecoder u v ∧ v.mac.txbuf = u.mac.txbuf := by
  cases m
  case idle => cases h; simp [SameEnvironment, SameDecoder]
  case waitFree =>
    rcases exec_waitFree_next h with ⟨-, rfl⟩ | ⟨-, -, rfl⟩ | ⟨-, -, -, -, rfl⟩ <;> simp [SameEnvironment, SameDecoder]
  case transmitted => rcases exec_transmitted_next h with ⟨-, rfl⟩ | ⟨-, rfl⟩ <;> simp [SameEnvironment, SameDecoder]
  case checkCollision => rcases exec_checkCollision_next h with ⟨-, rfl⟩ | ⟨-, rfl⟩ <;> simp [SameEnvironment, SameDecoder]
  case success => rw [exec_success_next h]; simp [SameEnvironment, SameDecoder]
  case sendJam =>
    rcases exec_sendJam_next h with ⟨-, rfl⟩ | ⟨-, -, rfl⟩ | ⟨-, -, rfl⟩ <;> simp [SameEnvironment, SameDecoder]
  case backoffDraw => rcases exec_backoffDraw_next h with ⟨-, rfl⟩ | ⟨-, rfl⟩ <;> simp [SameEnvironment, SameDecoder]
  case backoff => rcases exec_backoff_next h with ⟨-, rfl⟩ | ⟨-, rfl⟩ <;> simp [SameEnvironment, SameDecoder]
  case sendEsc => rcases exec_sendEsc_next h with ⟨-, rfl⟩ | ⟨-, rfl⟩ <;> simp [SameEnvironment, SameDecoder]

end Sys2Proof.Machine
end

