-- ==== Sys2Proof/Laws/Invariant.lean ====
section
/-! SUPPORT. Small lemmas about the invariant, the parameters and the wire sequences of Safety.lean. -/

namespace Sys2Proof.Machine

/-- What a legal configuration satisfies (00_scope R5). -/
theorem legal_facts {c : Config} (h : c.legal = true) :
    c.jamByte ≠ c.escByte ∧ 1 ≤ c.maxTries ∧ c.maxTries ≤ 15 ∧ 1 ≤ c.pollInterval ∧ 1 ≤ c.aw
      ∧ c.collisionWindow < 2 ^ c.tw ∧ c.pollInterval < 2 ^ c.tw ∧ 2 ^ c.maxTries * c.slotTime < 2 ^ c.tw := by
  simp only [Config.legal, Bool.and_eq_true, bne_iff_ne, Config.longestBackoff] at h
  obtain ⟨⟨⟨⟨⟨⟨⟨⟨⟨h1, h2⟩, h3⟩, h4⟩, h5⟩, h6⟩, h7⟩, h8⟩, -⟩, -⟩ := h
  exact ⟨h1, of_decide_eq_true h2, of_decide_eq_true h3, of_decide_eq_true h4, of_decide_eq_true h5,
    of_decide_eq_true h6, of_decide_eq_true h7, of_decide_eq_true h8⟩

/-- The exponent of a draw never passes `MAX_TRIES`. -/
theorem drawExponent_le (s : State) : drawExponent s ≤ s.cfg.maxTries := Nat.min_le_right _ _

/-- The invariant as a Boolean test, for concrete states. -/
def invHolds (s : State) : Bool :=
  s.cfg.legal && Memory.wf s.mac.txbuf && s.mac.txbuf.all (fun e => decide (e.1 < s.cfg.depth))
    && decide (s.mac.txLen < s.cfg.depth ∧ s.mac.txIdx ≤ s.mac.txLen
      ∧ (s.mac.state.sending = true → s.mac.txIdx < s.mac.txLen) ∧ (s.mac.state = .sendEsc → s.mac.txIdx = s.mac.txLen)
      ∧ s.mac.retryCnt ≤ s.cfg.maxTries ∧ (s.mac.state = .backoffDraw → 1 ≤ s.mac.retryCnt)
      ∧ s.mac.slotCnt ≤ 2 ^ s.cfg.maxTries ∧ s.mac.timer < 2 ^ s.cfg.tw
      ∧ (s.mac.state.timed = false → s.mac.timer = 0))
    && decide (¬ (s.mac.stDone = true ∧ s.mac.stErr = true)
      ∧ (s.mac.state ≠ .idle → s.mac.stDone = false ∧ s.mac.stErr = false)
      ∧ s.mac.errIdx < s.cfg.depth ∧ (s.cfg.mode = .receiver → s.mac.state = .idle)
      ∧ (s.cfg.mode = .sender → s.lookahead = none))
    && s.lookahead.all (fun b => b != s.cfg.jamByte && b != s.cfg.escByte)

theorem inv_of_invHolds {s : State} (h : invHolds s = true) : Inv s := by
  simp only [invHolds, Bool.and_eq_true, List.all_eq_true] at h
  obtain ⟨⟨⟨⟨⟨h1, h2⟩, h3⟩, h4⟩, h5⟩, h6⟩ := h
  obtain ⟨a1, a2, a3, a4, a5, a6, a7, a8, a9⟩ := of_decide_eq_true h4
  obtain ⟨b1, b2, b3, b4, b5⟩ := of_decide_eq_true h5
  refine ⟨h1, h2, fun e he => of_decide_eq_true (h3 e he), a1, a2, a3, a4, a5, a6, a7, a8, a9, b1, b2, b3, b4, b5, ?_⟩
  intro b hb
  simpa [hb] using h6

/-! The wire sequences. -/

theorem attempts_zero (c : Config) (b : Byte) : attempts c b 0 = [] := rfl

theorem attempts_succ (c : Config) (b : Byte) (n : Nat) :
    attempts c b (n + 1) = attempts c b n ++ [b, c.jamByte] := by
  simp [attempts, List.replicate_succ', List.flatten_append]

theorem symbolDraws_succ (n : Nat) : symbolDraws (n + 1) = symbolDraws n ++ [n + 1] := by
  simp [symbolDraws, List.range_succ]

theorem message_length (s : State) : (message s).length = s.mac.txLen := by simp [message]

/-- The message depends on the length, the buffer and the power-up alone. -/
theorem message_congr {s t : State} (h1 : t.mac.txLen = s.mac.txLen) (h2 : t.mac.txbuf = s.mac.txbuf)
    (h3 : t.seed = s.seed) : message t = message s := by
  simp only [message, h1]
  congr 1
  funext a
  simp [bufferByte, h2, unwrittenByte, h3]

/-- Decoding a sequence in two parts. -/
theorem decodeStream_append (c : Config) (held : Option Byte) (as bs : List Byte) :
    decodeStream c held (as ++ bs) =
      ((decodeStream c (decodeStream c held as).1 bs).1,
        (decodeStream c held as).2 ++ (decodeStream c (decodeStream c held as).1 bs).2) := by
  induction as generalizing held with
  | nil => simp [decodeStream]
  | cons a as ih => simp [decodeStream, ih]

end Sys2Proof.Machine
end

