-- ==== Sys2Proof/Laws/PerInstr.lean ====
section
/-! SUPPORT. The family EncodingFits: the word of a well-formed instruction uses only the wires its ports have. -/

namespace Sys2Proof.Laws.EncodingFits

/-- The encoder gives a word whose operands lie within their ports (30_encoding R95; 60_exceptions R194). -/
def Statement (i : Instr) : Prop := ∀ c : Config, i.wf c = true → (encode c i).fits c = true

theorem jam : Statement .jam := fun _ _ => rfl
theorem esc : Statement .esc := fun _ _ => rfl
theorem data (b : Byte) : Statement (.data b) := fun _ _ => rfl
theorem bufWrite (addr : Nat) (wdata : Byte) : Statement (.bufWrite addr wdata) := fun _ h => h
theorem submit (len : Nat) : Statement (.submit len) := fun _ h => h
theorem rxByte (d : Byte) (last : Bool) : Statement (.rxByte d last) := fun _ _ => rfl
theorem reset : Statement .reset := fun _ _ => rfl
theorem idle : Statement .idle := fun _ _ => rfl
theorem waitFree : Statement .waitFree := fun _ _ => rfl
theorem transmitted : Statement .transmitted := fun _ _ => rfl
theorem checkCollision : Statement .checkCollision := fun _ _ => rfl
theorem success : Statement .success := fun _ _ => rfl
theorem sendJam : Statement .sendJam := fun _ _ => rfl
theorem backoffDraw : Statement .backoffDraw := fun _ _ => rfl
theorem backoff : Statement .backoff := fun _ _ => rfl
theorem sendEsc : Statement .sendEsc := fun _ _ => rfl

/-- A count of tries has `SW` bits. -/
theorem tries_fit {c : Config} {arg : Nat} (h : arg ≤ c.maxTries) : arg < 2 ^ c.sw :=
  lt_of_le_of_lt h (lt_trans (Nat.lt_succ_self _) Nat.lt_two_pow_self)

theorem evtSymbolTx (arg : Nat) : Statement (.evtSymbolTx arg) := fun _ h =>
  ((Bool.and_eq_true _ _).mp h).2

theorem evtCollision (arg : Nat) : Statement (.evtCollision arg) := fun _ h =>
  decide_eq_true (tries_fit (of_decide_eq_true h))

theorem evtBackoff (arg : Nat) : Statement (.evtBackoff arg) := fun c h =>
  decide_eq_true (lt_of_le_of_lt (of_decide_eq_true h) (Nat.pow_lt_pow_right (by omega) (Nat.lt_succ_self c.maxTries)))

theorem evtDelivered (arg : Nat) : Statement (.evtDelivered arg) := fun _ h =>
  decide_eq_true (tries_fit (of_decide_eq_true h))

theorem evtDone (arg : Nat) : Statement (.evtDone arg) := fun c h =>
  decide_eq_true (lt_of_eq_of_lt (of_decide_eq_true h) (Nat.two_pow_pos c.sw))

theorem evtTriesExpired (arg : Nat) : Statement (.evtTriesExpired arg) := fun _ h =>
  decide_eq_true (tries_fit (le_of_eq (of_decide_eq_true h)))

end Sys2Proof.Laws.EncodingFits
end

