-- ==== Sys2Proof/Tests/Slice0.lean ====
section
/-! SUPPORT. The model's own tests. Expected values are those of spec/: 95_test_vectors (V1 to V6, P1 to P6), the encoding
tables of 30_encoding, 10_state R21 and 60_exceptions R194, or a hand calculation from a rule named in the comment. Then,
for every statement with hypotheses, a concrete state and operands that meet them. -/

namespace Sys2Proof.Tests

open Sys2Proof.Machine

/-! Helpers. -/

/-- The answer is a next state, and it passes the test. -/
def after (r : Result) (test : State → Bool) : Bool :=
  match r with
  | .next t => test t
  | .fault _ => false
  | .refused _ => false

/-- What a true `after` says. -/
theorem exists_of_after {r : Result} {test : State → Bool} (h : after r test = true) :
    ∃ t, r = .next t ∧ test t = true := by
  cases r with
  | next t => exact ⟨t, rfl, h⟩
  | fault _ => cases h
  | refused _ => cases h

/-- The reset state of a receiver. -/
def receiver : State := State.resetWith { Config.reference with mode := .receiver }

/-- A receiver that holds `A`. -/
def holdingA : State := { receiver with lookahead := some 0x41 }

/-- A sender in state `m` at index `idx` of the message `hi`. -/
def sender (m : MacState) (idx : Nat) : State :=
  { State.reset with mac := { Mac.afterReset [(0, 0x68), (1, 0x69)] with state := m, txLen := 2, txIdx := idx } }

/-- Ports: channel free, transport ready. -/
def free : Pins := { Pins.quiet with txReady := true }

/-- Ports: channel busy, transport ready. -/
def busy : Pins := { Pins.quiet with chanBusy := true, txReady := true }

/-! WellFormed refuses one ill-formed term for each of its checks (limits from 00_scope R5 and 60_exceptions R194). -/

theorem test_wf_data_is_no_jam : (Instr.data 0x18).wf Config.reference = false := by decide
theorem test_wf_data_is_no_escape : (Instr.data 0x1B).wf Config.reference = false := by decide
theorem test_wf_buffer_index : (Instr.bufWrite 256 0).wf Config.reference = false
    ∧ (Instr.bufWrite 255 0).wf Config.reference = true := by decide
theorem test_wf_submit_length : (Instr.submit 256).wf Config.reference = false
    ∧ (Instr.submit 255).wf Config.reference = true := by decide
theorem test_wf_event_symbol : (Instr.evtSymbolTx 256).wf Config.reference = false
    ∧ (Instr.evtSymbolTx 4).wf { Config.reference with maxTries := 1 } = false := by decide
theorem test_wf_event_collision : (Instr.evtCollision 11).wf Config.reference = false := by decide
theorem test_wf_event_backoff : (Instr.evtBackoff 1025).wf Config.reference = false
    ∧ (Instr.evtBackoff 1024).wf Config.reference = true := by decide
theorem test_wf_event_delivered : (Instr.evtDelivered 11).wf Config.reference = false := by decide
theorem test_wf_event_done : (Instr.evtDone 1).wf Config.reference = false := by decide
theorem test_wf_event_tries_expired : (Instr.evtTriesExpired 9).wf Config.reference = false := by decide

/-! Decoding: words written out from the tables. -/

/-- V1: every row of its table. -/
theorem test_decode_wire_bytes :
    [0b00011000, 0b00011011, 0b00000000, 0b11111111, 0b00010111, 0b00011001, 0b00011010, 0b00011100, 0b01101000,
      0b10011000].map (fun b => decode Config.reference (.wire8 b))
      = [.op .jam, .op .esc, .op (.data 0x00), .op (.data 0xFF), .op (.data 0x17), .op (.data 0x19), .op (.data 0x1A),
        .op (.data 0x1C), .op (.data 0x68), .op (.data 0x98)] := by decide

/-- 30_encoding R95: the four port operations, and the same groups with the strobe at 0. -/
theorem test_decode_port_words :
    [OpWord.bufPort true 5 0b01000001, .submitPort true 0b00000011, .rxPort true 0b01101000 true, .rstPort true,
      .bufPort false 5 0b01000001, .rstPort false].map (decode Config.reference)
      = [.op (.bufWrite 5 0x41), .op (.submit 3), .op (.rxByte 0x68 true), .op .reset, .rejected .noStrobe,
        .rejected .noStrobe] := by decide

/-- 10_state R21: the nine codes. -/
theorem test_decode_state_words :
    [0b0000, 0b0001, 0b0010, 0b0011, 0b0100, 0b0101, 0b0110, 0b0111, 0b1000].map
        (fun code => decode Config.reference (.seqState code))
      = [.op .idle, .op .waitFree, .op .transmitted, .op .checkCollision, .op .success, .op .sendJam, .op .backoffDraw,
        .op .backoff, .op .sendEsc] := by decide

/-- 10_state R21, U7: the seven codes that no rule produces. -/
theorem test_decode_unused_state_words :
    [0b1001, 0b1010, 0b1011, 0b1100, 0b1101, 0b1110, 0b1111].all
        (fun code => decide (decode Config.reference (.seqState code) = .rejected (.unusedStateCode code))) = true := by
  decide

/-- 60_exceptions R194: the six codes, and the two that are never produced. -/
theorem test_decode_event_words :
    [0b001, 0b010, 0b011, 0b100, 0b101, 0b110, 0b000, 0b111].map (fun code => decode Config.reference (.event true code 9))
      = [.op (.evtSymbolTx 9), .op (.evtCollision 9), .op (.evtBackoff 9), .op (.evtDelivered 9), .op (.evtDone 9),
        .op (.evtTriesExpired 9), .rejected (.unusedEventCode 0), .rejected (.unusedEventCode 7)] := by decide

/-- Words of spec/opcode_table.json (`ref_match`, `encoding`). -/
theorem test_decode_table_words :
    decodeTableWord 8 0b00011000 = some .jam ∧ decodeTableWord 8 0b00011011 = some .esc
    ∧ decodeTableWord 8 0b01101000 = some (.data 0x68) ∧ decodeTableWord 8 0b1000 = some .sendEsc
    ∧ decodeTableWord 4 0b0101 = some .sendJam ∧ decodeTableWord 4 0b1001 = none
    ∧ decodeTableWord 3 0b110 = some (.evtTriesExpired 0) := by decide

/-- Each sequencer word placed in the reset state is what the next step runs: BACKOFF with no wait goes to WAIT_FREE (V4
row 27), CHECK_COLLISION on a free channel to SUCCESS (row 15). -/
theorem test_with_fetch_word_state :
    after (step (State.reset.withFetchWord 8 0b0111)) (fun t => t.mac.state == .waitFree) = true
    ∧ after (step (State.reset.withFetchWord 8 0b0011)) (fun t => t.mac.state == .success) = true := by decide

/-- A wire byte placed in the reset state is received by the next step (V2). -/
theorem test_with_fetch_word_wire :
    after (step (State.reset.withFetchWord 8 0x68)) (fun t => t.lookahead == some 0x68) = true
    ∧ after (step (holdingA.withFetchWord 8 0x1B)) (fun t => t.out.dec == some 0x41 && t.lookahead == none) = true := by
  decide

/-! The buffer. -/

theorem test_buffer_is_canonical :
    Memory.write (Memory.write (Memory.write [] 5 1) 2 2) 5 3 = [(2, 2), (5, 3)] := by decide

theorem test_unsorted_buffer_is_not_canonical : Memory.wf [(5, 1), (2, 2)] = false ∧ Memory.wf [(2, 1), (2, 2)] = false := by
  decide

/-! The decoder: V2, one row at a time. -/

theorem test_jam_discards : after (exec .jam holdingA) (fun t => t.lookahead == none && t.out.dec == none) = true := by decide

theorem test_esc_flushes : after (exec .esc holdingA)
    (fun t => t.lookahead == none && t.out.dec == some 0x41 && t.tr.decOut == [0x41]) = true := by decide

theorem test_esc_flushes_nothing_twice : after (exec .esc receiver)
    (fun t => t.lookahead == none && t.out.dec == none && t.tr.decOut == []) = true := by decide

theorem test_data_flushes_the_old : after (exec (.data 0x42) holdingA)
    (fun t => t.lookahead == some 0x42 && t.out.dec == some 0x41) = true := by decide

theorem test_data_is_held_back : after (exec (.data 0x42) receiver)
    (fun t => t.lookahead == some 0x42 && t.out.dec == none) = true := by decide

/-- V3, batching: `[A, B]` then `[Escape]` gives the batches `[A]`, `[B]`. -/
theorem test_rx_batches : after
    (execAll [.rxByte 0x41 false, .rxByte 0x42 true, .rxByte 0x1B true] receiver)
    (fun t => t.tr.batches == [[0x41], [0x42]] && t.tr.decOut == [0x41, 0x42] && t.lookahead == none) = true := by decide

/-- V3, mode gating. -/
theorem test_rx_ignored_by_a_sender : after (exec (.rxByte 0x41 true) State.reset) (fun t => decide (t = State.reset)) = true := by
  decide

/-! The port operations: V4 rows 1 to 6 and 33. -/

theorem test_submit : after (exec (.submit 3) { State.reset with mac.stErr := true, mac.errIdx := 4 })
    (fun t => t.mac.txLen == 3 && t.mac.state == .waitFree && t.mac.stErr == false && t.mac.errIdx == 4) = true := by decide

theorem test_submit_empty : after (exec (.submit 0) State.reset) (fun t => t.mac.state == .sendEsc) = true
    ∧ after (exec (.submit 3) receiver) (fun t => decide (t = receiver)) = true := by decide

theorem test_buf_write : after (exec (.bufWrite 5 0x41) State.reset) (fun t => t.mac.txbuf == [(5, 0x41)]) = true := by decide

theorem test_buf_write_ignored : after (exec (.bufWrite 5 0x42) (sender .backoff 0))
    (fun t => t.mac.txbuf == [(0, 0x68), (1, 0x69)]) = true := by decide

/-- V4 row 33; the buffer is not reset (10_state R35). -/
theorem test_reset : after (exec .reset (sender .sendJam 1))
    (fun t => t.mac.state == .idle && t.mac.txLen == 0 && t.mac.txIdx == 0 && t.mac.txbuf == [(0, 0x68), (1, 0x69)]) = true := by
  decide

/-! The sequencer: V4 rows 7 to 32. -/

theorem test_idle : after (exec .idle (sender .idle 2)) (fun t => decide (t = sender .idle 2)) = true := by decide

/-- Rows 7 and 10: a busy channel, and a free one with the transport not ready. -/
theorem test_wait_free_failed_sample :
    after (exec .waitFree { sender .waitFree 0 with pins := busy })
      (fun t => t.tr.samples == [(.pre, true)] && t.mac.timer == 1 && t.out.tx == none && t.mac.state == .waitFree) = true
    ∧ after (exec .waitFree { sender .waitFree 0 with pins := Pins.quiet })
      (fun t => t.tr.samples == [(.pre, false)] && t.mac.timer == 1 && t.out.tx == none && t.mac.state == .waitFree) = true := by
  decide

/-- Row 11, with the event of 60_exceptions R194. -/
theorem test_wait_free_sends : after (exec .waitFree { sender .waitFree 0 with pins := free })
    (fun t => t.tr.samples == [(.pre, false)] && t.out.tx == some 0x68 && t.mac.timer == 20 && t.mac.state == .transmitted
      && t.out.evt == some ⟨.symbolTx, 0x68⟩) = true := by decide

/-- Row 12, and the same with no tick. -/
theorem test_transmitted_counts :
    after (exec .transmitted { sender .transmitted 0 with mac.timer := 20, pins := { free with tick := true } })
      (fun t => t.mac.timer == 19 && t.mac.state == .transmitted) = true
    ∧ after (exec .transmitted { sender .transmitted 0 with mac.timer := 20, pins := free })
      (fun t => t.mac.timer == 20 && t.mac.state == .transmitted) = true := by decide

/-- Row 13. -/
theorem test_transmitted_ends : after (exec .transmitted { sender .transmitted 0 with pins := busy })
    (fun t => t.mac.state == .checkCollision && t.tr.samples == []) = true := by decide

/-- Row 14. -/
theorem test_collision : after (exec .checkCollision { sender .checkCollision 0 with pins := busy })
    (fun t => t.tr.samples == [(.post, true)] && t.mac.state == .sendJam && t.out.evt == some ⟨.collision, 0⟩) = true := by decide

/-- Row 15. -/
theorem test_no_collision : after (exec .checkCollision { sender .checkCollision 0 with pins := free })
    (fun t => t.tr.samples == [(.post, false)] && t.mac.state == .success && t.out.evt == none) = true := by decide

/-- Rows 17 and 18. -/
theorem test_jam_counts :
    after (exec .sendJam { sender .sendJam 0 with pins := busy })
      (fun t => t.out.tx == some 0x18 && t.mac.retryCnt == 1 && t.mac.state == .backoffDraw) = true
    ∧ after (exec .sendJam { sender .sendJam 0 with mac.retryCnt := 9, pins := free })
      (fun t => t.out.tx == some 0x18 && t.mac.retryCnt == 10 && t.mac.state == .backoffDraw) = true := by decide

/-- Row 19. -/
theorem test_jam_aborts : after (exec .sendJam { sender .sendJam 1 with mac.retryCnt := 10, pins := free })
    (fun t => t.out.tx == some 0x18 && t.mac.stErr && t.mac.errIdx == 1 && errCode t == 1 && t.out.irqErr
      && t.mac.retryCnt == 10 && t.mac.state == .idle && t.out.evt == some ⟨.triesExpired, 10⟩) = true := by decide

/-- Rows 20 and 22. -/
theorem test_draw_accepted :
    after (exec .backoffDraw { sender .backoffDraw 0 with mac.retryCnt := 1, pins := { free with rng := 0x7FE } })
      (fun t => t.mac.slotCnt == 2 && t.mac.timer == 60 && t.mac.state == .backoff) = true
    ∧ after (exec .backoffDraw { sender .backoffDraw 0 with mac.retryCnt := 3, pins := { free with rng := 5 } })
      (fun t => t.mac.slotCnt == 5 && t.mac.timer == 150 && t.tr.draws == [(3, 5)]) = true := by decide

/-- Rows 24 and 25: the ends of the longest range. -/
theorem test_draw_range_end :
    after (exec .backoffDraw { sender .backoffDraw 0 with mac.retryCnt := 10, pins := { free with rng := 0x400 } })
      (fun t => t.mac.slotCnt == 1024 && t.mac.timer == 30720) = true
    ∧ after (exec .backoffDraw { sender .backoffDraw 0 with mac.retryCnt := 10, pins := { free with rng := 0x401 } })
      (fun t => t.mac.slotCnt == 0 && t.mac.state == .backoffDraw && t.tr.draws == []) = true := by decide

/-- Row 27. -/
theorem test_backoff_ends : after (exec .backoff { sender .backoff 1 with mac.retryCnt := 3 })
    (fun t => t.mac.state == .waitFree && t.mac.retryCnt == 3 && t.mac.txIdx == 1) = true := by decide

/-- Row 28. -/
theorem test_backoff_counts : after (exec .backoff { sender .backoff 1 with mac.timer := 60, pins := { free with tick := true } })
    (fun t => t.mac.timer == 59 && t.mac.state == .backoff) = true := by decide

/-- Row 29: the last symbol, after two collisions. -/
theorem test_success_last : after (exec .success { sender .success 1 with mac.retryCnt := 2 })
    (fun t => t.mac.retryCnt == 0 && t.mac.txIdx == 2 && t.mac.state == .sendEsc && t.out.evt == some ⟨.delivered, 2⟩) = true := by
  decide

/-- Row 30. -/
theorem test_success_next : after (exec .success { sender .success 3 with mac.txLen := 5 })
    (fun t => t.mac.txIdx == 4 && t.mac.state == .waitFree) = true := by decide

/-- Row 32. -/
theorem test_escape : after (exec .sendEsc { sender .sendEsc 2 with pins := busy })
    (fun t => t.out.tx == some 0x1B && t.mac.stDone && t.out.irqDone && t.mac.state == .idle
      && t.out.evt == some ⟨.done, 0⟩) = true := by decide

/-- Rows 16 and 31: with the transport not ready nothing changes. -/
theorem test_not_ready :
    after (exec .sendEsc (sender .sendEsc 2)) (fun t => decide (t = sender .sendEsc 2)) = true
    ∧ after (exec .sendJam (sender .sendJam 0)) (fun t => decide (t = sender .sendJam 0)) = true := by decide

/-- 60_exceptions R194: the codes on the debug port. -/
theorem test_event_codes :
    [Instr.evtSymbolTx 7, .evtCollision 7, .evtBackoff 7, .evtDelivered 7, .evtDone 7, .evtTriesExpired 7].map
        (fun i => after (exec i State.reset) fun t => (t.out.evt.map Event.arg) == some 7)
      = [true, true, true, true, true, true] := by decide

/-- V6: every row. -/
theorem test_slot_time : [0, 1, 2, 3, 4, 6, 10, 24, 25, 26, 27, 100].map
      (fun S => { Config.reference with collisionWindow := S, jamSignalTime := 0 }.slotTime)
    = [0, 1, 3, 4, 5, 8, 13, 30, 31, 33, 34, 125] := by decide

/-- 60_exceptions R192: the reference channel clock. -/
theorem test_reference_clock : referenceBusy 0 = true ∧ referenceBusy 1 = false := by decide

/-- P4 under the test bench: reset, `SUBMIT 0`, the Escape. -/
theorem test_empty_message :
    after (Bench.run 3 (Bench.ofLines [.reset, .submit 0]) State.reset)
      (fun t => t.tr.tx == [0x1B] && t.tr.samples == [] && t.mac.stDone && t.mac.state == .idle) = true := by decide

/-! Witnesses: for every statement with hypotheses, values that meet them together, one for each clause. -/

/-- EncodedInstructionDecodesBack: operands at the ends of their ranges. -/
theorem test_witness_encode : Config.reference.jamByte ≠ Config.reference.escByte
    ∧ [Instr.data 0x00, .data 0xFF, .bufWrite 255 0xFF, .submit 255, .submit 0, .rxByte 0x18 true, .evtSymbolTx 255,
      .evtBackoff 1024, .evtCollision 10, .evtDone 0, .evtTriesExpired 10].all (Instr.wf Config.reference) = true := by decide

/-- DecodedWordEncodesBack. -/
theorem test_witness_decoded_word : (OpWord.submitPort true 255).fits Config.reference = true
    ∧ decode Config.reference (.submitPort true 255) = .op (.submit 255)
    ∧ (OpWord.event true 3 2047).fits Config.reference = true
    ∧ decode Config.reference (.event true 3 2047) = .op (.evtBackoff 2047) := by decide

/-- WireBytesFallIntoThreeClasses, InvariantHoldsAfterReset. -/
theorem test_witness_legal : Config.reference.jamByte ≠ Config.reference.escByte ∧ Config.reference.legal = true := by decide

/-- EscapeFlushesTheHeldByteOnce, DataByteFlushesTheOldAndIsHeld: a held byte and none. -/
theorem test_witness_held : holdingA.lookahead = some 0x41 ∧ receiver.lookahead = none := by decide

/-- ReceivedByteRunsItsClassAndNotifies and DecoderIsTheFoldOverTheBytes; SenderIgnoresReceivedBytes. -/
theorem test_witness_modes : holdingA.cfg.mode = .receiver ∧ State.reset.cfg.mode = .sender := by decide

/-- SentMessageDecodesToItself: a message with collisions on its first symbol (V3, P3). -/
theorem test_witness_sent : (Config.reference.jamByte ≠ Config.reference.escByte
      ∧ ∀ p ∈ [((0x41 : Byte), 2), (0x42, 0)], p.1 ≠ Config.reference.jamByte ∧ p.1 ≠ Config.reference.escByte)
    ∧ (0x62 : Byte) ≠ Config.reference.jamByte ∧ (0x62 : Byte) ≠ Config.reference.escByte
    ∧ completedWire Config.reference [(0x41, 2), (0x42, 0)] = [0x41, 0x18, 0x41, 0x18, 0x41, 0x42, 0x1B] := by decide

/-- BufWriteStoresOnlyInIdle and SubmitStartsASend: the last index and length, accepted and not; a submit of 0. -/
theorem test_witness_port_operations : 255 < State.reset.cfg.depth ∧ 0 < State.reset.cfg.depth
    ∧ State.reset.mac.state = .idle ∧ (sender .backoff 0).mac.state ≠ .idle
    ∧ submitReady State.reset = true ∧ submitReady receiver = false ∧ submitReady (sender .backoff 0) = false := by decide

/-- The level outputs of 40_mac R125: in IDLE a sender is ready and not busy, a receiver neither (V4 row 3), and in each of
the other eight states the MAC is busy and not ready. -/
theorem test_level_outputs : (submitReady State.reset, macBusy State.reset) = (true, false)
    ∧ (submitReady receiver, macBusy receiver) = (false, false)
    ∧ [MacState.waitFree, .transmitted, .checkCollision, .success, .sendJam, .backoffDraw, .backoff, .sendEsc].all
        (fun m => macBusy (sender m 0) && !submitReady (sender m 0)) = true := by decide

/-- OperandsBeyondTheirPortsFault. -/
theorem test_witness_operands_beyond : State.reset.cfg.depth ≤ 256 ∧ State.reset.mac.state = .idle
    ∧ State.reset.cfg.mode = .sender ∧ (sender .waitFree 256).cfg.depth ≤ 256
    ∧ ({ sender .waitFree 256 with pins := free } : State).mac.timer = 0
    ∧ ({ sender .waitFree 256 with pins := free } : State).mac.txIdx = 256
    ∧ ({ sender .waitFree 256 with pins := free } : State).pins.chanBusy = false
    ∧ ({ sender .waitFree 256 with pins := free } : State).pins.txReady = true := by decide

/-- IdleStaysUntilAStrobeIsAccepted: no strobe in a sender, a strobe in a receiver. -/
theorem test_witness_idle : (State.reset.cfg.legal = true ∧ State.reset.mac.state = .idle ∧ State.reset.pins.rst = false
      ∧ State.reset.pins.bufWe = false ∧ State.reset.pins.submit = false)
    ∧ (receiver.cfg.legal = true ∧ receiver.mac.state = .idle ∧ receiver.cfg.mode = .receiver) := by decide

/-- WaitFreeSendsOnAFreeSample: the last index of the buffer, a wait, a busy channel, a transport not ready, a free sample;
and a symbol that fits `SW` bits. -/
theorem test_witness_wait_free : (sender .waitFree 255).mac.txIdx < (sender .waitFree 255).cfg.depth
    ∧ ({ sender .waitFree 255 with mac.timer := 1 } : State).mac.timer ≠ 0 ∧ (sender .waitFree 255).mac.timer = 0
    ∧ busy.chanBusy = true ∧ Pins.quiet.txReady = false ∧ free.chanBusy = false ∧ free.txReady = true
    ∧ (0xFF : Byte).toNat < 2 ^ State.reset.cfg.sw := by decide

/-- TransmittedWaitsOutTheWindow and BackoffRetriesTheSameSymbol: a wait and its end; CheckCollisionSamplesOnce. -/
theorem test_witness_waits : ({ sender .backoff 0 with mac.timer := 1 } : State).mac.timer ≠ 0
    ∧ (sender .backoff 0).mac.timer = 0 ∧ busy.chanBusy = true ∧ free.chanBusy = false := by decide

/-- SendJamCountsOrAborts, ControlBytesIgnoreTheChannel: each of the three cases. -/
theorem test_witness_send_jam : Pins.quiet.txReady = false ∧ free.txReady = true
    ∧ ({ sender .sendJam 0 with mac.retryCnt := 9 } : State).mac.retryCnt ≠ State.reset.cfg.maxTries
    ∧ ({ sender .sendJam 0 with mac.retryCnt := 10 } : State).mac.retryCnt = State.reset.cfg.maxTries := by decide

/-- BackoffDrawAcceptsOrLooksAgain and EverySlotCountInRangeCanBeDrawn: both ends of `retry_cnt`, the last word accepted
and the first refused. -/
theorem test_witness_draw : 1 ≤ Config.reference.maxTries ∧ (0x400 % 2 ^ (10 + 1) ≤ 2 ^ 10) ∧ 2 ^ 10 < 0x401 % 2 ^ (10 + 1)
    ∧ (2 % 2 ^ (1 + 1) ≤ 2 ^ 1) ∧ 2 ^ 1 < 3 % 2 ^ (1 + 1) ∧ (10 ≤ Config.reference.maxTries) := by decide

/-- SuccessAdvancesToTheNextSymbol: the last symbol and another; SendEscEndsTheMessage. -/
theorem test_witness_success : (sender .success 1).mac.txIdx + 1 = (sender .success 1).mac.txLen
    ∧ (sender .success 0).mac.txIdx + 1 ≠ (sender .success 0).mac.txLen
    ∧ Pins.quiet.txReady = false ∧ free.txReady = true := by decide

/-- StepRunsTheSequencerInstruction, StepRunsTheDecodedOperations. -/
theorem test_witness_step : State.reset.cfg.legal = true ∧ State.reset.pins.rst = false ∧ State.reset.pins.bufWe = false
    ∧ State.reset.pins.submit = false ∧ State.reset.pins.rxValid = false
    ∧ decode State.reset.cfg (.seqState State.reset.mac.state.code) = .op .idle
    ∧ decode (sender .sendEsc 2).cfg (.seqState (sender .sendEsc 2).mac.state.code) = .op .sendEsc := by decide

/-- ResetOverridesTheCycle: a reset in the middle of a send. -/
theorem test_witness_reset : ({ sender .sendJam 1 with pins := { free with rst := true } } : State).pins.rst = true
    ∧ (sender .sendJam 1).cfg.legal = true := by decide

/-- IllegalConfigurationIsRefused: each of its clauses at the edge of its range. -/
theorem test_witness_illegal :
    (let c := Config.reference
     [{ c with jamByte := c.escByte }, { c with maxTries := 0 }, { c with maxTries := 16, tw := 40 },
        { c with pollInterval := 0 }, { c with aw := 0 }, { c with collisionWindow := 2 ^ 16 },
        { c with pollInterval := 2 ^ 16 }, { c with tw := 14 }, { c with tickNum := 0 }, { c with tickDen := 0 }].map fun c =>
          [c.jamByte == c.escByte, c.maxTries == 0, decide (15 < c.maxTries), c.pollInterval == 0, c.aw == 0,
            decide (2 ^ c.tw ≤ c.collisionWindow), decide (2 ^ c.tw ≤ c.pollInterval),
            decide (2 ^ c.tw ≤ 2 ^ c.maxTries * c.slotTime), c.tickNum == 0, c.tickDen == 0].findIdx (· = true))
      = [0, 1, 2, 3, 4, 5, 6, 7, 8, 9] := by
  decide

/-- A sender in IDLE whose host writes the last index and submits the longest message. -/
def writingAndSubmitting : State :=
  { State.reset with
    pins := { free with bufWe := true, bufAddr := 255, bufWdata := 0x41, submit := true, submitLen := 255 } }

/-- WriteInTheSubmitStepIsPartOfTheMessage, AcceptedSubmitBeginsTheSend. -/
theorem test_witness_write_and_submit : writingAndSubmitting.cfg.legal = true ∧ writingAndSubmitting.mac.state = .idle
    ∧ writingAndSubmitting.cfg.mode = .sender ∧ writingAndSubmitting.pins.rst = false
    ∧ writingAndSubmitting.pins.bufWe = true ∧ writingAndSubmitting.pins.submit = true
    ∧ writingAndSubmitting.pins.bufAddr < writingAndSubmitting.cfg.depth
    ∧ writingAndSubmitting.pins.submitLen < writingAndSubmitting.cfg.depth := by decide

theorem test_witness_submit_inv : Inv writingAndSubmitting := inv_of_invHolds (by decide)

theorem test_witness_submit_step : ∃ t, step writingAndSubmitting = .next t ∧ (t.mac.txLen == 255) = true :=
  exists_of_after (r := step writingAndSubmitting) (test := fun t => t.mac.txLen == 255) (by decide)

/-- A sender that writes the symbol `h` in the coming step, with a BUF_WRITE ignored. -/
def writingSymbol : State :=
  { sender .waitFree 0 with pins := { free with bufWe := true, bufAddr := 0, bufWdata := 0x41 } }

/-- MessageIsFrozenDuringASend, ParametersNeverChange, OneTransportByteAndOnlyWhenReady, EveryByteWrittenHasItsSource (its
first case), SequencerMovesOnlyByTheEdgeTable, EveryStepKeepsTheInvariant, NoCycleStops, SendRankFallsAtEveryMove. -/
theorem test_witness_symbol : Inv writingSymbol ∧ writingSymbol.mac.state ≠ .idle ∧ writingSymbol.pins.rst = false
    ∧ ∃ t, step writingSymbol = .next t ∧ (t.out.tx == some 0x68 && t.mac.state != writingSymbol.mac.state) = true :=
  ⟨inv_of_invHolds (by decide), by decide, by decide, exists_of_after (r := step writingSymbol)
    (test := fun t => t.out.tx == some 0x68 && t.mac.state != writingSymbol.mac.state) (by decide)⟩

/-- The same with a reset (SequencerMovesOnlyByTheEdgeTable), and a step that waits (SendRankFallsAtEveryMove). -/
theorem test_witness_symbol_reset :
    (∃ t, step { writingSymbol with pins.rst := true } = .next t ∧ (t.mac.state == .idle) = true)
    ∧ ∃ t, step { writingSymbol with mac.timer := 1 } = .next t ∧ (t.mac.state == .waitFree) = true :=
  ⟨exists_of_after (test := fun t => t.mac.state == .idle) (by decide),
   exists_of_after (test := fun t => t.mac.state == .waitFree) (by decide)⟩

/-- A sender whose last collision is jammed in the coming step. -/
def aborting : State := { sender .sendJam 1 with mac.retryCnt := 10, pins := busy }

/-- EveryByteWrittenHasItsSource (its second case), TriesExpiredComesFromSendJamAlone, ReportPulsesMarkTheRisingFlags,
SendEndsWithExactlyOneReport. -/
theorem test_witness_abort : Inv aborting ∧ aborting.mac.state ≠ .idle ∧ aborting.mac.stErr = false
    ∧ ∃ t, step aborting = .next t ∧ (t.mac.stErr && t.out.tx == some 0x18 && t.mac.state == .idle && t.out.irqErr) = true :=
  ⟨inv_of_invHolds (by decide), by decide, by decide, exists_of_after (r := step aborting)
    (test := fun t => t.mac.stErr && t.out.tx == some 0x18 && t.mac.state == .idle && t.out.irqErr) (by decide)⟩

/-- A sender that ends its message in the coming step. -/
def ending : State := { sender .sendEsc 2 with pins := busy }

/-- EveryByteWrittenHasItsSource (its third case), ReportPulsesMarkTheRisingFlags and SendEndsWithExactlyOneReport, the other
report; with a reset, neither. -/
theorem test_witness_end : Inv ending
    ∧ (∃ t, step ending = .next t ∧ (t.mac.stDone && t.out.tx == some 0x1B && t.mac.state == .idle && t.out.irqDone) = true)
    ∧ ∃ t, step { ending with pins.rst := true } = .next t ∧ (t.mac.state == .idle && !t.mac.stDone && !t.mac.stErr) = true :=
  ⟨inv_of_invHolds (by decide),
   exists_of_after (r := step ending)
    (test := fun t => t.mac.stDone && t.out.tx == some 0x1B && t.mac.state == .idle && t.out.irqDone) (by decide),
   exists_of_after (test := fun t => t.mac.state == .idle && !t.mac.stDone && !t.mac.stErr) (by decide)⟩

/-- A receiver that holds `A` and is given `B`, the last of a burst. -/
def hearing : State := { holdingA with pins := { Pins.quiet with rxValid := true, rxData := 0x42, rxLast := true } }

/-- DecoderOutputsOfAStep, HeldByteIsTheLastReceived (a byte received; none received). -/
theorem test_witness_hearing : Inv hearing
    ∧ (∃ t, step hearing = .next t ∧ (t.out.dec == some 0x41 && t.out.decNotify && t.lookahead == some 0x42) = true)
    ∧ ∃ t, step holdingA = .next t ∧ (t.out.dec == none && t.lookahead == some 0x41) = true :=
  ⟨inv_of_invHolds (by decide),
   exists_of_after (r := step hearing)
    (test := fun t => t.out.dec == some 0x41 && t.out.decNotify && t.lookahead == some 0x42) (by decide),
   exists_of_after (r := step holdingA) (test := fun t => t.out.dec == none && t.lookahead == some 0x41) (by decide)⟩

/-- A sender that draws the largest slot count of the tenth collision in the coming step. -/
def drawing : State :=
  { sender .backoffDraw 0 with mac.retryCnt := 10, tr.draws := [(1, 2)], pins := { free with rng := 0x400 } }

/-- EveryDrawIsInItsRange. -/
theorem test_witness_drawing : Inv drawing
    ∧ (∀ p ∈ drawing.tr.draws, 1 ≤ p.1 ∧ p.1 ≤ drawing.cfg.maxTries ∧ p.2 ≤ 2 ^ p.1)
    ∧ ∃ t, step drawing = .next t ∧ (t.tr.draws == [(1, 2), (10, 1024)]) = true :=
  ⟨inv_of_invHolds (by decide), by decide,
   exists_of_after (r := step drawing) (test := fun t => t.tr.draws == [(1, 2), (10, 1024)]) (by decide)⟩

/-- SendPutsExactlyTheRuleOnTheWire: the first symbol of `hi` met one collision and was delivered, the second is about to be
jammed for its first. -/
def inTheMiddle : State :=
  { sender .sendJam 1 with
    pins := busy
    tr := { Traces.empty with
      tx := [0x68, 0x18, 0x68, 0x69]
      samples := [(.pre, false), (.post, true), (.pre, false), (.post, false), (.pre, false), (.post, true)]
      draws := [(1, 2)] } }

theorem test_witness_in_the_middle : Inv inTheMiddle ∧ SendProgress Traces.empty inTheMiddle
    ∧ inTheMiddle.mac.state ≠ .idle ∧ inTheMiddle.pins.rst = false
    ∧ ∃ t, step inTheMiddle = .next t ∧ (t.tr.tx == [0x68, 0x18, 0x68, 0x69, 0x18]) = true :=
  ⟨inv_of_invHolds (by decide), ⟨[1], by decide⟩, by decide, by decide,
   exists_of_after (r := step inTheMiddle) (test := fun t => t.tr.tx == [0x68, 0x18, 0x68, 0x69, 0x18]) (by decide)⟩

/-- TimedWaitEndsAfterItsTicks: a wait of two ticks in each of the two states, and a wait of none. -/
def waiting (m : MacState) (n : Nat) : State :=
  { sender m 0 with
    mac.timer := n, pins := { free with tick := true }, stim := List.replicate n { busy with tick := true } }

theorem test_witness_waiting : [waiting .transmitted 2, waiting .backoff 2, waiting .backoff 0].all (fun s =>
    decide (s.cfg.legal = true ∧ (s.mac.state = .transmitted ∨ s.mac.state = .backoff) ∧ s.pins.tick = true
      ∧ s.pins.rst = false ∧ (∀ p ∈ s.stim, p.tick = true ∧ p.rst = false) ∧ s.mac.timer ≤ s.stim.length)) = true := by
  decide

/-- EmptyMessageIsOneEscape. -/
def submittingNothing : State := { State.reset with pins := { free with submit := true, submitLen := 0 }, stim := [busy] }

theorem test_witness_empty : Inv submittingNothing ∧ submittingNothing.mac.state = .idle
    ∧ submittingNothing.cfg.mode = .sender ∧ submittingNothing.pins.rst = false ∧ submittingNothing.pins.submit = true
    ∧ submittingNothing.pins.submitLen = 0 ∧ submittingNothing.stim = busy :: [] ∧ busy.rst = false ∧ busy.txReady = true :=
  ⟨inv_of_invHolds (by decide), by decide⟩

/-- MacDoesNotDependOnTheDecoder: the same MAC beside two decoders; DecoderDoesNotDependOnTheMac: the same decoder beside
two MACs. -/
theorem test_witness_agents :
    (receiver.cfg = hearing.cfg ∧ receiver.mac = hearing.mac ∧ receiver.seed = hearing.seed
      ∧ SameMacInputs receiver.pins hearing.pins ∧ receiver.lookahead ≠ hearing.lookahead)
    ∧ ((sender .sendJam 0).cfg = ending.cfg ∧ (sender .sendJam 0).lookahead = ending.lookahead
      ∧ SameDecoderInputs (sender .sendJam 0).pins ending.pins ∧ (sender .sendJam 0).mac ≠ ending.mac) := by
  unfold SameMacInputs SameDecoderInputs
  decide

theorem test_witness_agents_step :
    (∃ t, step receiver = .next t ∧ (t.lookahead == none) = true)
    ∧ ∃ t, step (sender .sendJam 0) = .next t ∧ (t.out.tx == none) = true :=
  ⟨exists_of_after (test := fun t => t.lookahead == none) (by decide),
   exists_of_after (test := fun t => t.out.tx == none) (by decide)⟩

/-- EventsDriveOnlyTheDebugPort: the first and the last row; ControlBytesIgnoreTheChannel: both instructions. -/
theorem test_witness_events :
    (let rows := [(Instr.evtSymbolTx 10, EvtKind.symbolTx, (1 : BitVec 3)), (.evtCollision 10, .collision, 2),
      (.evtBackoff 10, .backoff, 3), (.evtDelivered 10, .delivered, 4), (.evtDone 10, .done, 5),
      (.evtTriesExpired 10, .triesExpired, 6)]
     (Instr.evtSymbolTx 10, EvtKind.symbolTx, (1 : BitVec 3)) ∈ rows
      ∧ (Instr.evtTriesExpired 10, EvtKind.triesExpired, (6 : BitVec 3)) ∈ rows)
    ∧ (Instr.sendJam = .sendJam ∨ Instr.sendJam = .sendEsc) ∧ (Instr.sendEsc = .sendJam ∨ Instr.sendEsc = .sendEsc) := by
  decide

/-- SlotTimeRoundsTiesUp: a tie. -/
theorem test_witness_tie : (26 : Nat) = ({ Config.reference with collisionWindow := 22 } : Config).collisionWindow
    + ({ Config.reference with collisionWindow := 22 } : Config).jamSignalTime ∧ 26 % 4 = 2 := by decide

end Sys2Proof.Tests
end

section
/-! PROOFS. The scope (00_scope): the parameters' constraints guard the step. -/

namespace Sys2Proof.Machine

/-- The part of R5 that `legal_facts` leaves out: `TICK_PERIOD` is a quotient of two positive numbers. -/
theorem legal_tick_pos {c : Config} (h : c.legal = true) : 0 < c.tickNum ∧ 0 < c.tickDen := by
  simp only [Config.legal, Bool.and_eq_true, decide_eq_true_eq] at h
  obtain ⟨⟨-, hnum⟩, hden⟩ := h
  exact ⟨hnum, hden⟩

/-- The guard of `step`: outside R5 nothing runs. -/
theorem step_of_not_legal {s : State} (h : ¬ s.cfg.legal = true) : step s = .refused .illegalConfiguration :=
  if_neg h

/-- Settles O31: a broken constraint contradicts the fact that legality gives for it, so `step`'s guard refuses. -/
theorem illegalConfigurationIsRefused : Obligations.IllegalConfigurationIsRefused := by
  intro s hbroken
  refine step_of_not_legal fun hlegal => ?_
  obtain ⟨hctl, htries, htries15, hpoll, haw, hwindowFits, hpollFits, hbackoffFits⟩ := legal_facts hlegal
  obtain ⟨hnum, hden⟩ := legal_tick_pos hlegal
  rcases hbroken with h | h | h | h | h | h | h | h | h | h
  · exact hctl h
  · exact Nat.ne_of_gt htries h
  · exact Nat.not_lt.mpr htries15 h
  · exact Nat.ne_of_gt hpoll h
  · exact Nat.ne_of_gt haw h
  · exact Nat.not_lt.mpr h hwindowFits
  · exact Nat.not_lt.mpr h hpollFits
  · exact Nat.not_lt.mpr h hbackoffFits
  · exact Nat.ne_of_gt hnum h
  · exact Nat.ne_of_gt hden h

end Sys2Proof.Machine
end

section
/-! PROOFS. The invariant (10_state R22 to R30): it holds after reset, and every part of a cycle keeps it. -/

namespace Sys2Proof.Machine

/-! What a step that goes on did, in each of the two kinds of cycle. -/

theorem step_reset {s t : State} (h : step s = .next t) (hr : s.pins.rst = true) :
    t = endCycle (applyReset (beginCycle s)) := by
  obtain ⟨-, ⟨-, ht⟩ | ⟨hr', -⟩⟩ := step_next h
  · exact ht
  · simp [hr] at hr'

theorem step_no_reset {s t : State} (h : step s = .next t) (hr : s.pins.rst = false) :
    ∃ u, exec s.mac.state.instr (beforeSequencer s) = .next u ∧ t = endCycle u := by
  obtain ⟨-, ⟨hr', -⟩ | ⟨-, hu⟩⟩ := step_next h
  · simp [hr] at hr'
  · exact hu

/-- The decoder's part of a step without reset is what the receive group left: the sequencer's rule does not touch it. -/
theorem step_sameDecoder {s t : State} (h : step s = .next t) (hr : s.pins.rst = false) :
    SameDecoder (beforeSequencer s) t := by
  obtain ⟨u, hu, rfl⟩ := step_no_reset h hr
  exact (exec_instr_frame hu).2.1

/-! The invariant: it reads the parameters, the MAC's registers and the held byte, and nothing else. -/

theorem Inv.congr {u v : State} (h : Inv u) (hcfg : v.cfg = u.cfg) (hmac : v.mac = u.mac)
    (hheld : v.lookahead = u.lookahead) : Inv v := by
  obtain ⟨_, _, _, _, _, _, _, _, _⟩ := u
  obtain ⟨_, _, _, _, _, _, _, _, _⟩ := v
  subst hcfg hmac hheld
  exact { h with }

/-- The reset values of 10_state R35 beside a good buffer, under legal parameters. -/
theorem inv_of_resetValues {s : State} (hlegal : s.cfg.legal = true) {txbuf : List Host.Cell}
    (hmac : s.mac = Mac.afterReset txbuf) (hheld : s.lookahead = none) (hcanonical : Memory.wf txbuf = true)
    (hrange : ∀ e ∈ txbuf, e.1 < s.cfg.depth) : Inv s := by
  constructor
  case legal => exact hlegal
  case bufferCanonical => rw [hmac]; exact hcanonical
  case bufferInRange => rw [hmac]; exact hrange
  all_goals simp [hmac, hheld, Mac.afterReset, MacState.sending, depth_pos]

theorem inv_applyReset {u : State} (h : Inv u) : Inv (applyReset u) :=
  inv_of_resetValues h.legal rfl rfl h.bufferCanonical h.bufferInRange

/-- Settles O43: the reset values with an empty buffer. -/
theorem invariantHoldsAfterReset : Obligations.InvariantHoldsAfterReset := by
  have hall : ∀ c : Config, c.legal = true → Inv (State.resetWith c) := fun c hc =>
    inv_of_resetValues hc rfl rfl rfl (by simp)
  exact ⟨hall, hall _ (by decide)⟩

/-! The port operations keep the invariant. -/

theorem inv_writtenState {u : State} (h : Inv u) : Inv (writtenState u) := by
  have hcanonical : Memory.wf (bufferAfter u) = true := by
    unfold bufferAfter
    split
    · exact Memory.wf_write _ _ _ h.bufferCanonical
    · exact h.bufferCanonical
  have hrange : ∀ e ∈ bufferAfter u, e.1 < u.cfg.depth := by
    unfold bufferAfter
    split
    · intro e he
      rcases Memory.mem_write he with hold | rfl
      · exact h.bufferInRange e hold
      · exact Nat.mod_lt _ (depth_pos _)
    · exact h.bufferInRange
  exact { h with bufferCanonical := hcanonical, bufferInRange := hrange }

/-- An accepted SUBMIT of a length that fits begins a send at index 0. -/
theorem inv_acceptSubmit {u : State} {len : Nat} (h : Inv u) (hmode : u.cfg.mode = .sender) (hlen : len < u.cfg.depth) :
    Inv (acceptSubmit len u) :=
  { h with
    lengthFits := hlen
    indexBounded := Nat.zero_le _
    indexInside := by
      intro hs
      by_cases h0 : len = 0
      · simp [h0, MacState.sending] at hs
      · exact Nat.pos_of_ne_zero h0
    indexAtEnd := by
      intro hs
      by_cases h0 : len = 0
      · exact h0.symm
      · simp [h0] at hs
    retryBounded := Nat.zero_le _
    retryCounted := by
      intro hs
      by_cases h0 : len = 0 <;> simp [h0] at hs
    timerFits := Nat.two_pow_pos _
    timerOnlyInWaits := fun _ => rfl
    reportsExclusive := by simp
    noReportWhileBusy := fun _ => ⟨rfl, rfl⟩
    receiverIdles := fun hm => by simp [hmode] at hm }

theorem inv_submittedState {u : State} (h : Inv u) : Inv (submittedState u) := by
  unfold submittedState
  split
  · rename_i haccepted
    exact inv_acceptSubmit h haccepted.2.2 (Nat.mod_lt _ (depth_pos _))
  · exact h

/-- A byte held after one received byte is that byte, and no control byte (10_state R29). -/
theorem decodeByte_holds {c : Config} {held : Option Byte} {b x : Byte} (h : (decodeByte c held b).1 = some x) :
    b = x ∧ x ≠ c.jamByte ∧ x ≠ c.escByte := by
  unfold decodeByte at h
  split at h
  · cases h
  · split at h
    · cases h
    · cases h; exact ⟨rfl, ‹_›, ‹_›⟩

theorem inv_heardState {u : State} (h : Inv u) : Inv (heardState u) := by
  by_cases hh : hears u
  · have hheld := (receivedState_decoder u.pins.rxData u.pins.rxLast u).1
    rw [heardState_hears hh]
    have hsame : Inv { u with lookahead := (decodeByte u.cfg u.lookahead u.pins.rxData).1 } :=
      { h with
        senderHoldsNothing := fun hm => by simp [hh.2] at hm
        heldByteOrdinary := fun _ hb => (decodeByte_holds hb).2 }
    exact hsame.congr (by simp) (by simp) hheld
  · rwa [heardState_deaf hh]

theorem inv_beforeSequencer {s : State} (h : Inv s) : Inv (beforeSequencer s) :=
  inv_heardState (inv_submittedState (inv_writtenState (h.congr rfl rfl rfl)))

/-! The operations of which the sequencer's rules are made, where they keep the invariant. -/

/-- A loaded timer of `TW` bits in a timed state. -/
theorem Inv.loadTimer {u : State} {n : Nat} (h : Inv u) (hn : n < 2 ^ u.cfg.tw) (ht : u.mac.state.timed = true) :
    Inv (loadTimer n u) :=
  { h with
    timerFits := hn
    timerOnlyInWaits := fun hnot => by simp [ht] at hnot }

theorem Inv.countTick {u : State} (h : Inv u) (ht : u.mac.state.timed = true) : Inv (countTick u) := by
  unfold Machine.countTick
  split
  · exact h.loadTimer (lt_of_le_of_lt (Nat.sub_le _ _) h.timerFits) ht
  · exact h

/-- A counted collision. -/
theorem Inv.setRetry_succ {u : State} (h : Inv u) (hlt : u.mac.retryCnt < u.cfg.maxTries) :
    Inv (setRetry (u.mac.retryCnt + 1) u) :=
  { h with
    retryBounded := hlt
    retryCounted := fun _ => Nat.le_add_left _ _ }

theorem sending_ne_idle {m : MacState} (h : m.sending = true) : m ≠ .idle := by
  rintro rfl; cases h

/-- From one state with a symbol in progress to another: the draw asks for a counted collision, an untimed state for a
timer at 0. -/
theorem Inv.goTo_sending {u : State} {m : MacState} (h : Inv u) (hu : u.mac.state.sending = true)
    (hm : m.sending = true) (hdraw : m = .backoffDraw → 1 ≤ u.mac.retryCnt)
    (htimer : m.timed = false → u.mac.timer = 0) : Inv (goTo m u) :=
  { h with
    indexInside := fun _ => h.indexInside hu
    indexAtEnd := by rintro rfl; cases hm
    retryCounted := hdraw
    timerOnlyInWaits := htimer
    noReportWhileBusy := fun _ => h.noReportWhileBusy (sending_ne_idle hu)
    receiverIdles := fun hr => absurd (h.receiverIdles hr) (sending_ne_idle hu) }

/-- Back to IDLE with the timer at 0 and at most one of the two reports set: the end of a send. -/
theorem Inv.goTo_idle {u : State} (h : Inv u) (htimer : u.mac.timer = 0) : Inv (goTo .idle u) :=
  { h with
    indexInside := nofun
    indexAtEnd := nofun
    retryCounted := nofun
    timerOnlyInWaits := fun _ => htimer
    noReportWhileBusy := fun hs => absurd rfl hs
    receiverIdles := fun _ => rfl }

/-! Each rule of the sequencer keeps the invariant. -/

theorem inv_exec_waitFree {u v : State} (h : Inv u) (hs : u.mac.state = .waitFree) (he : exec .waitFree u = .next v) :
    Inv v := by
  obtain ⟨-, -, -, -, -, hwindow, hpoll, -⟩ := legal_facts h.legal
  have htimed : u.mac.state.timed = true := by rw [hs]; rfl
  have hsending : u.mac.state.sending = true := by rw [hs]; rfl
  rcases exec_waitFree_next he with ⟨-, rfl⟩ | ⟨-, -, rfl⟩ | ⟨-, -, -, -, rfl⟩
  · exact h.countTick htimed
  · exact (h.loadTimer hpoll htimed).congr rfl rfl rfl
  · exact ((h.loadTimer hwindow htimed).goTo_sending (m := .transmitted) hsending rfl nofun nofun).congr rfl rfl rfl

theorem inv_exec_transmitted {u v : State} (h : Inv u) (hs : u.mac.state = .transmitted)
    (he : exec .transmitted u = .next v) : Inv v := by
  rcases exec_transmitted_next he with ⟨-, rfl⟩ | ⟨ht, rfl⟩
  · exact h.countTick (by rw [hs]; rfl)
  · exact h.goTo_sending (by rw [hs]; rfl) rfl nofun fun _ => ht

theorem inv_exec_checkCollision {u v : State} (h : Inv u) (hs : u.mac.state = .checkCollision)
    (he : exec .checkCollision u = .next v) : Inv v := by
  have hgo : ∀ m : MacState, m.sending = true → m ≠ .backoffDraw → Inv (goTo m u) := fun m hm hne =>
    h.goTo_sending (by rw [hs]; rfl) hm (fun hd => absurd hd hne) fun _ => h.timerOnlyInWaits (by rw [hs]; rfl)
  rcases exec_checkCollision_next he with ⟨-, rfl⟩ | ⟨-, rfl⟩
  · exact (hgo .sendJam rfl nofun).congr rfl rfl rfl
  · exact (hgo .success rfl nofun).congr rfl rfl rfl

/-- The index advances by one, to the end exactly where the sequencer leaves for SEND_ESC. -/
theorem inv_exec_success {u v : State} (h : Inv u) (hs : u.mac.state = .success) (he : exec .success u = .next v) :
    Inv v := by
  have hinside : u.mac.txIdx < u.mac.txLen := h.indexInside (by rw [hs]; rfl)
  have hbusy : u.mac.state ≠ .idle := by rw [hs]; nofun
  have htimer : u.mac.timer = 0 := h.timerOnlyInWaits (by rw [hs]; rfl)
  rw [exec_success_next he]
  exact
    { h with
      indexBounded := hinside
      indexInside := by
        intro hsend
        by_cases hlast : u.mac.txIdx + 1 = u.mac.txLen
        · simp [hlast, MacState.sending] at hsend
        · exact lt_of_le_of_ne hinside hlast
      indexAtEnd := by
        intro hesc
        by_cases hlast : u.mac.txIdx + 1 = u.mac.txLen
        · exact hlast
        · simp [hlast] at hesc
      retryBounded := Nat.zero_le _
      retryCounted := by
        intro hdraw
        by_cases hlast : u.mac.txIdx + 1 = u.mac.txLen <;> simp [hlast] at hdraw
      timerOnlyInWaits := fun _ => htimer
      noReportWhileBusy := fun _ => h.noReportWhileBusy hbusy
      receiverIdles := fun hr => absurd (h.receiverIdles hr) hbusy }

theorem inv_exec_sendJam {u v : State} (h : Inv u) (hs : u.mac.state = .sendJam) (he : exec .sendJam u = .next v) :
    Inv v := by
  have hsending : u.mac.state.sending = true := by rw [hs]; rfl
  have htimer : u.mac.timer = 0 := h.timerOnlyInWaits (by rw [hs]; rfl)
  rcases exec_sendJam_next he with ⟨-, rfl⟩ | ⟨-, hne, rfl⟩ | ⟨-, -, rfl⟩
  · exact h
  · have hcounted := h.setRetry_succ (lt_of_le_of_ne h.retryBounded hne)
    exact (hcounted.goTo_sending (m := .backoffDraw) hsending rfl (fun _ => Nat.le_add_left _ _)
      fun _ => htimer).congr rfl rfl rfl
  · obtain ⟨hdone, -⟩ := h.noReportWhileBusy (sending_ne_idle hsending)
    exact
      { h.goTo_idle htimer with
        reportsExclusive := by simp [hdone]
        noReportWhileBusy := fun hi => absurd rfl hi
        errIndexFits := lt_of_le_of_lt h.indexBounded h.lengthFits }

/-- The draw is at most `2^k` with `k <= MAX_TRIES`, so its wait is at most the longest backoff, which R5 bounds. -/
theorem inv_exec_backoffDraw {u v : State} (h : Inv u) (hs : u.mac.state = .backoffDraw)
    (he : exec .backoffDraw u = .next v) : Inv v := by
  obtain ⟨-, -, -, -, -, -, -, hlongest⟩ := legal_facts h.legal
  rcases exec_backoffDraw_next he with ⟨-, rfl⟩ | ⟨hdraw, rfl⟩
  · exact h
  · have hslot : drawCandidate u ≤ 2 ^ u.cfg.maxTries :=
      hdraw.trans (Nat.pow_le_pow_right two_pos (drawExponent_le u))
    have hwait : drawCandidate u * u.cfg.slotTime < 2 ^ u.cfg.tw :=
      lt_of_le_of_lt (Nat.mul_le_mul_right _ hslot) hlongest
    have hbackoff : Inv (goTo .backoff u) := h.goTo_sending (by rw [hs]; rfl) rfl nofun nofun
    exact
      { hbackoff with
        slotBounded := hslot
        timerFits := hwait
        timerOnlyInWaits := nofun }

theorem inv_exec_backoff {u v : State} (h : Inv u) (hs : u.mac.state = .backoff) (he : exec .backoff u = .next v) :
    Inv v := by
  rcases exec_backoff_next he with ⟨-, rfl⟩ | ⟨-, rfl⟩
  · exact h.countTick (by rw [hs]; rfl)
  · exact h.goTo_sending (by rw [hs]; rfl) rfl nofun nofun

theorem inv_exec_sendEsc {u v : State} (h : Inv u) (hs : u.mac.state = .sendEsc) (he : exec .sendEsc u = .next v) :
    Inv v := by
  rcases exec_sendEsc_next he with ⟨-, rfl⟩ | ⟨-, rfl⟩
  · exact h
  · obtain ⟨-, herr⟩ := h.noReportWhileBusy (by rw [hs]; nofun)
    exact
      { h.goTo_idle (h.timerOnlyInWaits (by rw [hs]; rfl)) with
        reportsExclusive := by simp [herr]
        noReportWhileBusy := fun hi => absurd rfl hi }

theorem inv_exec_sequencer {u v : State} (h : Inv u) (he : exec u.mac.state.instr u = .next v) : Inv v := by
  cases hs : u.mac.state <;> rw [hs] at he
  case idle => cases he; exact h
  case waitFree => exact inv_exec_waitFree h hs he
  case transmitted => exact inv_exec_transmitted h hs he
  case checkCollision => exact inv_exec_checkCollision h hs he
  case success => exact inv_exec_success h hs he
  case sendJam => exact inv_exec_sendJam h hs he
  case backoffDraw => exact inv_exec_backoffDraw h hs he
  case backoff => exact inv_exec_backoff h hs he
  case sendEsc => exact inv_exec_sendEsc h hs he

/-- The rule that runs is that of the state the cycle began in: in IDLE it changes nothing, and elsewhere the port
operations have left the MAC alone. -/
theorem exec_instr_beforeSequencer (s : State) :
    (s.mac.state = .idle ∧ exec s.mac.state.instr (beforeSequencer s) = .next (beforeSequencer s))
    ∨ (s.mac.state ≠ .idle ∧ (beforeSequencer s).mac = s.mac) := by
  by_cases hi : s.mac.state = .idle
  · exact .inl ⟨hi, by rw [hi]; rfl⟩
  · exact .inr ⟨hi, beforeSequencer_mac_busy hi⟩

/-- Settles O44: each part of a cycle keeps the invariant. -/
theorem everyStepKeepsTheInvariant : Obligations.EveryStepKeepsTheInvariant := by
  intro s t h hstep
  cases hr : s.pins.rst with
  | true =>
    rw [step_reset hstep hr]
    exact (inv_applyReset h).congr rfl rfl rfl
  | false =>
    obtain ⟨u, hu, rfl⟩ := step_no_reset hstep hr
    have hbefore := inv_beforeSequencer h
    refine Inv.congr ?_ (endCycle_cfg u) (endCycle_mac u) (endCycle_lookahead u)
    rcases exec_instr_beforeSequencer s with ⟨-, hidle⟩ | ⟨-, hmac⟩
    · rw [hidle] at hu; cases hu; exact hbefore
    · rw [← hmac] at hu; exact inv_exec_sequencer hbefore hu

end Sys2Proof.Machine
end

section
/-! PROOFS. Single steps (10_state): the parameters, reset, the sequencer's instruction, the held byte, the reports. -/

namespace Sys2Proof.Machine

/-- Settles O34: neither a reset nor any operation of a cycle writes the parameters. -/
theorem parametersNeverChange : Obligations.ParametersNeverChange := by
  intro s t hstep
  cases hr : s.pins.rst with
  | true => rw [step_reset hstep hr]; rfl
  | false =>
    obtain ⟨u, hu, rfl⟩ := step_no_reset hstep hr
    obtain ⟨⟨hcfg, -⟩, -⟩ := exec_instr_frame hu
    rw [endCycle_cfg, hcfg, beforeSequencer_cfg]

/-- Settles O14: `applyReset` writes the reset values, and the buffer it keeps reads as before. -/
theorem resetGivesTheResetValues : Obligations.ResetGivesTheResetValues := by
  intro s
  have hbuffer : SameBuffer s (applyReset s) := memRead_congr rfl rfl rfl
  have henv : SameEnvironment s (applyReset s) := ⟨rfl, rfl, rfl, rfl, rfl⟩
  refine ⟨applyReset s, rfl, ?_⟩
  simp [Mac.afterReset, Outputs.quiet, hbuffer, henv]

/-- With no strobe in the cycle the port operations do nothing. -/
theorem beforeSequencer_no_strobe {s : State} (hwrite : s.pins.bufWe = false) (hsubmit : s.pins.submit = false)
    (hrx : s.pins.rxValid = false) : beforeSequencer s = beginCycle s := by
  have hbuffer : writtenState (beginCycle s) = beginCycle s := by simp [writtenState, bufferAfter, hwrite]; rfl
  have hsend : submittedState (beginCycle s) = beginCycle s := by simp [submittedState, hsubmit]
  rw [beforeSequencer, hbuffer, hsend, heardState_deaf (by simp [hears, hrx])]

/-- Settles O29: without strobes the cycle is the sequencer's rule alone. -/
theorem stepRunsTheSequencerInstruction : Obligations.StepRunsTheSequencerInstruction := by
  intro s i hlegal hr hwrite hsubmit hrx hdecode
  rw [decode_state_code] at hdecode
  cases hdecode
  rw [step, if_pos hlegal, runCycle_no_reset hr, beforeSequencer_no_strobe hwrite hsubmit hrx]

/-- Settles O39: the receive group alone writes the lookahead, and holds no byte but the one it was given. -/
theorem heldByteIsTheLastReceived : Obligations.HeldByteIsTheLastReceived := by
  intro s t b hstep hheld
  cases hr : s.pins.rst with
  | true => rw [step_reset hstep hr] at hheld; cases hheld
  | false =>
    refine ⟨rfl, ?_⟩
    rw [(step_sameDecoder hstep hr).1] at hheld
    by_cases hh : hears s
    · rw [(beforeSequencer_hears hh).1] at hheld
      obtain ⟨rfl, hjam, hesc⟩ := decodeByte_holds hheld
      exact .inl ⟨hh.1, hh.2, rfl, hjam, hesc⟩
    · rw [(beforeSequencer_deaf hh).1] at hheld
      exact .inr ⟨hh, hheld⟩

/-! The report flags and their pulses (10_state R27, R32). -/

/-- Both report flags and both report pulses are as before. -/
def SameReports (u v : State) : Prop :=
  v.mac.stDone = u.mac.stDone ∧ v.mac.stErr = u.mac.stErr ∧ v.out.irqDone = u.out.irqDone ∧ v.out.irqErr = u.out.irqErr

/-- The sequencer reports at most once in a step: SEND_ESC the end of the message, SEND_JAM the abort. -/
theorem exec_instr_reports {m : MacState} {u v : State} (h : exec m.instr u = .next v) :
    SameReports u v ∨ (m = .sendEsc ∧ SameReports (reportDone u) v)
      ∨ (m = .sendJam ∧ SameReports (reportError u.mac.txIdx u) v) := by
  cases m
  case idle => cases h; exact .inl (by simp [SameReports])
  case waitFree =>
    rcases exec_waitFree_next h with ⟨-, rfl⟩ | ⟨-, -, rfl⟩ | ⟨-, -, -, -, rfl⟩ <;> exact .inl (by simp [SameReports])
  case transmitted => rcases exec_transmitted_next h with ⟨-, rfl⟩ | ⟨-, rfl⟩ <;> exact .inl (by simp [SameReports])
  case checkCollision => rcases exec_checkCollision_next h with ⟨-, rfl⟩ | ⟨-, rfl⟩ <;> exact .inl (by simp [SameReports])
  case success => rw [exec_success_next h]; exact .inl (by simp [SameReports])
  case sendJam =>
    rcases exec_sendJam_next h with ⟨-, rfl⟩ | ⟨-, -, rfl⟩ | ⟨-, -, rfl⟩
    · exact .inl (by simp [SameReports])
    · exact .inl (by simp [SameReports])
    · exact .inr (.inr ⟨rfl, by simp [SameReports]⟩)
  case backoffDraw => rcases exec_backoffDraw_next h with ⟨-, rfl⟩ | ⟨-, rfl⟩ <;> exact .inl (by simp [SameReports])
  case backoff => rcases exec_backoff_next h with ⟨-, rfl⟩ | ⟨-, rfl⟩ <;> exact .inl (by simp [SameReports])
  case sendEsc =>
    rcases exec_sendEsc_next h with ⟨-, rfl⟩ | ⟨-, rfl⟩
    · exact .inl (by simp [SameReports])
    · exact .inr (.inl ⟨rfl, by simp [SameReports]⟩)

/-- The port operations set no report: a SUBMIT clears both, and nothing else touches them. -/
theorem beforeSequencer_reports (s : State) :
    (s.mac.stDone = false → (beforeSequencer s).mac.stDone = false)
    ∧ (s.mac.stErr = false → (beforeSequencer s).mac.stErr = false) := by
  rw [beforeSequencer_mac, submittedState_mac]
  split <;> simp

/-- Settles O40: in IDLE no flag rises and no pulse is driven; in a send both flags start at 0, and a rule that sets one
drives its pulse with it. -/
theorem reportPulsesMarkTheRisingFlags : Obligations.ReportPulsesMarkTheRisingFlags := by
  intro s t h hstep
  cases hr : s.pins.rst with
  | true => rw [step_reset hstep hr]; simp [Mac.afterReset, Outputs.quiet]
  | false =>
    obtain ⟨u, hu, rfl⟩ := step_no_reset hstep hr
    obtain ⟨-, -, hirqDone, hirqErr, -⟩ := beforeSequencer_macOutputs s
    simp only [endCycle_mac, endCycle_out]
    rcases exec_instr_beforeSequencer s with ⟨-, hidle⟩ | ⟨hbusy, hmac⟩
    · rw [hidle] at hu
      cases hu
      simpa [hirqDone, hirqErr] using beforeSequencer_reports s
    · obtain ⟨hdone, herr⟩ := h.noReportWhileBusy hbusy
      rcases exec_instr_reports hu with ⟨h1, h2, h3, h4⟩ | ⟨-, h1, h2, h3, h4⟩ | ⟨-, h1, h2, h3, h4⟩ <;>
        simp [h1, h2, h3, h4, hmac, hdone, herr, hirqDone, hirqErr]

end Sys2Proof.Machine
end

section
/-! PROOFS. The two agents (10_state R20, 60_exceptions R186): in a step neither depends on the other. -/

namespace Sys2Proof.Machine

/-- Settles O53: the decoder's part of a step is a function of the parameters, the lookahead, reset and the receive port. -/
theorem decoderDoesNotDependOnTheMac : Obligations.DecoderDoesNotDependOnTheMac := by
  intro s₁ s₂ t₁ t₂ hcfg hheld ⟨hrst, hvalid, hdata, hlast⟩ hstep₁ hstep₂
  cases hr : s₁.pins.rst with
  | true =>
    rw [step_reset hstep₁ hr, step_reset hstep₂ (hrst ▸ hr)]
    exact ⟨rfl, rfl, rfl⟩
  | false =>
    obtain ⟨hheld₁, hdec₁, hnotify₁, -⟩ := step_sameDecoder hstep₁ hr
    obtain ⟨hheld₂, hdec₂, hnotify₂, -⟩ := step_sameDecoder hstep₂ (hrst ▸ hr)
    rw [hheld₁, hdec₁, hnotify₁, hheld₂, hdec₂, hnotify₂]
    have hhears : hears s₁ ↔ hears s₂ := by simp [hears, hcfg, hvalid]
    by_cases hh : hears s₁
    · simp [beforeSequencer_hears hh, beforeSequencer_hears (hhears.mp hh), hcfg, hheld, hdata, hlast]
    · simp [beforeSequencer_deaf hh, beforeSequencer_deaf (hhears.not.mp hh), hheld]

/-- What the MAC can see of a state and drive in it: the parameters, its registers, the power-up, its inputs and its outputs.
The rest is blanked. -/
def macView (s : State) : State where
  cfg := s.cfg
  mac := s.mac
  lookahead := none
  pins := { s.pins with rxValid := false, rxData := 0, rxLast := false }
  stim := []
  cycle := 0
  seed := s.seed
  out := { s.out with dec := none, decNotify := false }
  tr := Traces.empty

/-- A cycle begins in the same view where parameters, registers, power-up and MAC inputs are the same. -/
theorem macView_beginCycle_congr {s₁ s₂ : State} (hcfg : s₁.cfg = s₂.cfg) (hmac : s₁.mac = s₂.mac)
    (hseed : s₁.seed = s₂.seed) (hpins : SameMacInputs s₁.pins s₂.pins) :
    macView (beginCycle s₁) = macView (beginCycle s₂) := by
  obtain ⟨h1, h2, h3, h4, h5, h6, h7, h8, h9, h10⟩ := hpins
  simp [macView, hcfg, hmac, hseed, h1, h2, h3, h4, h5, h6, h7, h8, h9, h10]

theorem macView_writtenState (s : State) : macView (writtenState s) = writtenState (macView s) := rfl

theorem macView_submittedState (s : State) : macView (submittedState s) = submittedState (macView s) :=
  apply_ite macView _ _ _

theorem macView_countTick (s : State) : macView (countTick s) = countTick (macView s) := apply_ite macView _ _ _

/-- A received byte reaches nothing that the MAC can see. -/
theorem macView_receivedState (b : Byte) (last : Bool) (s : State) : macView (receivedState b last s) = macView s := by
  have hflush : macView (flushPending s) = macView s := by unfold flushPending; split <;> rfl
  have hbyte : macView (if b = s.cfg.jamByte then clearLookahead s
      else if b = s.cfg.escByte then clearLookahead (flushPending s) else holdByte b (flushPending s)) = macView s := by
    split
    · rfl
    · split <;> exact hflush
  unfold receivedState
  cases last <;> exact hbyte

theorem macView_heardState (s : State) : macView (heardState s) = macView s := by
  unfold heardState
  split
  · exact macView_receivedState _ _ s
  · rfl

theorem macView_beforeSequencer (s : State) :
    macView (beforeSequencer s) = submittedState (writtenState (macView (beginCycle s))) := by
  rw [beforeSequencer, macView_heardState, macView_submittedState, macView_writtenState]

/-- The view of where an instruction goes on. -/
def macViewOf (r : Result) : Result := andThen r fun v => .next (macView v)

/-- Blanking what the MAC cannot see, before a rule of the sequencer or only after it, makes no difference. -/
theorem macViewOf_exec_macView (m : MacState) (u : State) :
    macViewOf (exec m.instr (macView u)) = macViewOf (exec m.instr u) := by
  cases m <;> simp only [MacState.instr, exec]
  case idle => rfl
  case waitFree =>
    have hread : memRead (macView u) (symbolIndex (macView u)) = memRead u (symbolIndex u) := rfl
    simp only [execWaitFree, hread]
    cases memRead u (symbolIndex u) <;>
      · simp only [apply_ite macViewOf, ← macView_countTick]
        rfl
  case transmitted =>
    simp only [execTransmitted, apply_ite macViewOf, ← macView_countTick]
    rfl
  case checkCollision =>
    simp only [execCheckCollision, apply_ite macViewOf]
    rfl
  case success => rfl
  case sendJam =>
    simp only [execSendJam, apply_ite macViewOf]
    rfl
  case backoffDraw =>
    simp only [execBackoffDraw, apply_ite macViewOf]
    rfl
  case backoff =>
    simp only [execBackoff, apply_ite macViewOf, ← macView_countTick]
    rfl
  case sendEsc =>
    simp only [execSendEsc, apply_ite macViewOf]
    rfl

/-- In a cycle that begins in the same view the sequencer's rule ends in the same view. -/
theorem macView_exec_congr {m : MacState} {u₁ u₂ v₁ v₂ : State} (hview : macView u₁ = macView u₂)
    (h₁ : exec m.instr u₁ = .next v₁) (h₂ : exec m.instr u₂ = .next v₂) : macView v₁ = macView v₂ := by
  have heq : macViewOf (exec m.instr u₁) = macViewOf (exec m.instr u₂) := by
    rw [← macViewOf_exec_macView, hview, macViewOf_exec_macView]
  rw [h₁, h₂] at heq
  exact Host.Outcome.next.inj heq

/-- Two states with the same view have the same MAC registers and MAC outputs. -/
theorem mac_eq_of_macView_eq {t₁ t₂ : State} (h : macView t₁ = macView t₂) :
    t₁.mac = t₂.mac ∧ t₁.out.tx = t₂.out.tx ∧ t₁.out.evt = t₂.out.evt ∧ t₁.out.irqDone = t₂.out.irqDone
      ∧ t₁.out.irqErr = t₂.out.irqErr := by
  have hmac := congrArg State.mac h
  have hout := congrArg State.out h
  simp only [macView, Outputs.mk.injEq] at hmac hout
  obtain ⟨htx, -, -, hevt, hdone, herr⟩ := hout
  exact ⟨hmac, htx, hevt, hdone, herr⟩

/-- Settles O52: a cycle begins in the same view of the MAC, and each of its parts keeps the views equal. -/
theorem macDoesNotDependOnTheDecoder : Obligations.MacDoesNotDependOnTheDecoder := by
  intro s₁ s₂ t₁ t₂ hcfg hmac hseed hpins hstep₁ hstep₂
  have hbegin := macView_beginCycle_congr hcfg hmac hseed hpins
  obtain ⟨hrst, -⟩ := hpins
  cases hr : s₁.pins.rst with
  | true =>
    rw [step_reset hstep₁ hr, step_reset hstep₂ (hrst ▸ hr)]
    simp [hmac]
  | false =>
    obtain ⟨u₁, hu₁, rfl⟩ := step_no_reset hstep₁ hr
    obtain ⟨u₂, hu₂, rfl⟩ := step_no_reset hstep₂ (hrst ▸ hr)
    have hbefore : macView (beforeSequencer s₁) = macView (beforeSequencer s₂) := by
      rw [macView_beforeSequencer, macView_beforeSequencer, hbegin]
    rw [← hmac] at hu₂
    have hafter := macView_exec_congr hbefore hu₁ hu₂
    simpa using mac_eq_of_macView_eq hafter

end Sys2Proof.Machine
end

section
/-! PROOFS. The message buffer (20_memory): what no port can carry stops by name, a write in the submit step counts, and
nothing changes during a send. -/

namespace Sys2Proof.Machine

/-! Reading and writing (20_memory R61). -/

theorem memRead_outside {s : State} {a : Nat} (h : s.cfg.depth ≤ a) : memRead s a = .error (.outsideBuffer a) :=
  if_neg (Nat.not_lt.mpr h)

theorem memWrite_outside {s : State} {a : Nat} (v : Byte) (h : s.cfg.depth ≤ a) :
    memWrite s a v = .fault (.outsideBuffer a) :=
  if_neg (Nat.not_lt.mpr h)

theorem memRead_written_same {s t : State} {a : Nat} {v : Byte} (hcfg : t.cfg = s.cfg)
    (hbuffer : t.mac.txbuf = Memory.write s.mac.txbuf a v) (ha : a < s.cfg.depth) : memRead t a = .ok v := by
  rw [memRead_inside (by rwa [hcfg]), bufferByte, hbuffer, Memory.read_write_same, Option.getD_some]

theorem memRead_written_other {s t : State} {a b : Nat} {v : Byte} (hcfg : t.cfg = s.cfg) (hseed : t.seed = s.seed)
    (hbuffer : t.mac.txbuf = Memory.write s.mac.txbuf a v) (hb : b ≠ a) : memRead t b = memRead s b := by
  simp only [memRead, unwrittenByte, hcfg, hseed, hbuffer, Memory.read_write_other _ _ hb]

/-! Each operation where it is accepted. -/

theorem exec_bufWrite_idle {s : State} (a : Nat) (v : Byte) (hidle : s.mac.state = .idle) :
    exec (.bufWrite a v) s = memWrite s a v :=
  if_pos hidle

theorem exec_submit_ready {s : State} (n : Nat) (hidle : s.mac.state = .idle) (hmode : s.cfg.mode = .sender) :
    exec (.submit n) s =
      if n < s.cfg.depth then .next (acceptSubmit n s) else .fault (.messageTooLong n) :=
  if_pos ⟨hidle, hmode⟩

/-- On a free channel, with the transport ready, WAIT_FREE stops where the fetch of its symbol does. -/
theorem exec_waitFree_fetch_error {s : State} {f : Fault} (htimer : s.mac.timer = 0) (hfree : s.pins.chanBusy = false)
    (hready : s.pins.txReady = true) (hfetch : memRead s s.mac.txIdx = .error f) : exec .waitFree s = .fault f := by
  simp [exec, execWaitFree, symbolIndex, htimer, hfree, hready, hfetch]

/-- Settles O15: each of the three operations meets its bound on the operand, and `n` is beyond it. -/
theorem operandsBeyondTheirPortsFault : Obligations.OperandsBeyondTheirPortsFault := by
  intro s n v hn
  refine ⟨fun hidle => ?_, fun hidle hmode => ?_, fun hidx htimer hfree hready => ?_⟩
  · rw [exec_bufWrite_idle n v hidle, memWrite_outside v hn]
  · rw [exec_submit_ready n hidle hmode, if_neg (Nat.not_lt.mpr hn)]
  · subst hidx
    exact exec_waitFree_fetch_error htimer hfree hready (memRead_outside hn)

/-! A step from IDLE. -/

/-- In IDLE a step without reset is the port operations alone (40_mac R113). -/
theorem step_idle {s : State} (hlegal : s.cfg.legal = true) (hr : s.pins.rst = false) (hidle : s.mac.state = .idle) :
    step s = .next (endCycle (beforeSequencer s)) := by
  rw [step, if_pos hlegal, runCycle_no_reset hr, hidle]
  rfl

/-- The MAC after an accepted BUF_WRITE and an accepted SUBMIT in one cycle: the write, then the start of the send. -/
theorem beforeSequencer_mac_write_submit {s : State} (hidle : s.mac.state = .idle) (hmode : s.cfg.mode = .sender)
    (hwrite : s.pins.bufWe = true) (hsubmit : s.pins.submit = true) :
    (beforeSequencer s).mac =
      { (acceptSubmit (s.pins.submitLen % s.cfg.depth) s).mac with
        txbuf := Memory.write s.mac.txbuf (s.pins.bufAddr % s.cfg.depth) s.pins.bufWdata } := by
  simp [beforeSequencer_mac, submittedState_mac, bufferAfter, hidle, hmode, hwrite, hsubmit]

/-- Settles O32: the step from IDLE performs both operations, and operands within their wires reach them uncut. -/
theorem writeInTheSubmitStepIsPartOfTheMessage : Obligations.WriteInTheSubmitStepIsPartOfTheMessage := by
  intro s hlegal hidle hmode hr hwrite hsubmit haddr hlen
  have hmac := beforeSequencer_mac_write_submit hidle hmode hwrite hsubmit
  rw [Nat.mod_eq_of_lt haddr, Nat.mod_eq_of_lt hlen] at hmac
  have hcfg := beforeSequencer_cfg s
  have hseed := beforeSequencer_seed s
  have hbuffer := congrArg Mac.txbuf hmac
  refine ⟨_, step_idle hlegal hr hidle, ?_, fun a ha => ?_, ?_⟩
  · exact memRead_written_same hcfg hbuffer haddr
  · exact memRead_written_other hcfg hseed hbuffer ha
  · simp [hmac]

/-! A step during a send. -/

/-- No rule of the sequencer writes the length of the message (10_state R22). -/
theorem exec_instr_txLen {m : MacState} {u v : State} (h : exec m.instr u = .next v) : v.mac.txLen = u.mac.txLen := by
  cases m
  case idle => cases h; rfl
  case waitFree => rcases exec_waitFree_next h with ⟨-, rfl⟩ | ⟨-, -, rfl⟩ | ⟨-, -, -, -, rfl⟩ <;> simp
  case transmitted => rcases exec_transmitted_next h with ⟨-, rfl⟩ | ⟨-, rfl⟩ <;> simp
  case checkCollision => rcases exec_checkCollision_next h with ⟨-, rfl⟩ | ⟨-, rfl⟩ <;> simp
  case success => rw [exec_success_next h]; simp
  case sendJam => rcases exec_sendJam_next h with ⟨-, rfl⟩ | ⟨-, -, rfl⟩ | ⟨-, -, rfl⟩ <;> simp
  case backoffDraw => rcases exec_backoffDraw_next h with ⟨-, rfl⟩ | ⟨-, rfl⟩ <;> simp
  case backoff => rcases exec_backoff_next h with ⟨-, rfl⟩ | ⟨-, rfl⟩ <;> simp
  case sendEsc => rcases exec_sendEsc_next h with ⟨-, rfl⟩ | ⟨-, rfl⟩ <;> simp

/-- Settles O33: reset keeps the buffer; otherwise the port operations leave a busy MAC alone, and the sequencer's rule
writes neither the buffer nor the length. -/
theorem messageIsFrozenDuringASend : Obligations.MessageIsFrozenDuringASend := by
  intro s t hbusy hstep
  cases hr : s.pins.rst with
  | true =>
    rw [step_reset hstep hr]
    exact ⟨memRead_congr rfl rfl rfl, nofun⟩
  | false =>
    obtain ⟨u, hu, rfl⟩ := step_no_reset hstep hr
    have hlen := exec_instr_txLen hu
    obtain ⟨⟨hcfg, -, -, -, hseed⟩, -, hbuffer⟩ := exec_instr_frame hu
    rw [beforeSequencer_mac_busy hbusy] at hlen hbuffer
    rw [beforeSequencer_cfg] at hcfg
    rw [beforeSequencer_seed] at hseed
    exact ⟨memRead_congr hcfg hbuffer hseed, fun _ => message_congr hlen hbuffer hseed⟩

end Sys2Proof.Machine
end

section
/-! PROOFS. The encoding (30_encoding): each table read in both directions. -/

namespace Sys2Proof.Machine

/-! The wire bytes (30_encoding R91). -/

theorem classify_eq_jam {c : Config} {b : Byte} : classify c b = .jam ↔ b = c.jamByte := by
  unfold classify
  split_ifs with hjam hesc <;> simp [hjam]

theorem classify_eq_data {c : Config} {b : Byte} : classify c b = .data b ↔ b ≠ c.jamByte ∧ b ≠ c.escByte := by
  unfold classify
  split_ifs with hjam hesc
  · simp [hjam]
  · simp [hesc]
  · simp [hjam, hesc]

/-- The test for the Jam comes first, so the Escape needs distinct control bytes. -/
theorem classify_eq_esc {c : Config} {b : Byte} (hctl : c.jamByte ≠ c.escByte) :
    classify c b = .esc ↔ b = c.escByte := by
  unfold classify
  split_ifs with hjam hesc
  · simpa [hjam] using hctl
  · simp [hesc]
  · simp [hesc]

/-- The encoder gives back a classified byte whatever the control bytes are. -/
theorem encode_classify (c : Config) (b : Byte) : encode c (classify c b) = .wire8 b := by
  unfold classify
  split_ifs with hjam hesc
  · rw [hjam]; rfl
  · rw [hesc]; rfl
  · rfl

theorem decode_wire8_eq_op {c : Config} {b : Byte} {i : Instr} :
    decode c (.wire8 b) = .op i ↔ classify c b = i := by
  simp [decode]

/-- All 256 bytes but the two control bytes. -/
theorem card_ordinary_bytes {c : Config} (hctl : c.jamByte ≠ c.escByte) :
    (Finset.univ.filter fun b : Byte => b ≠ c.jamByte ∧ b ≠ c.escByte).card = 254 := by
  have hcompl : (Finset.univ.filter fun b : Byte => b ≠ c.jamByte ∧ b ≠ c.escByte)
      = ({c.jamByte, c.escByte} : Finset Byte)ᶜ := by
    ext b; simp
  have hbytes : Fintype.card Byte = 256 := FinEnum.card_eq_fintypeCard.symm.trans (FinEnum.card_bitVec 8)
  rw [hcompl, Finset.card_compl, Finset.card_pair hctl, hbytes]

/-- Settles O3: the three classes are the branches of `classify`, and the data class is all bytes but two. -/
theorem wireBytesFallIntoThreeClasses : Obligations.WireBytesFallIntoThreeClasses := by
  intro c hctl
  simp only [decode_wire8_eq_op]
  refine ⟨fun _ => classify_eq_jam, fun _ => classify_eq_esc hctl, fun _ => classify_eq_data, ?_⟩
  simpa only [classify_eq_data] using card_ordinary_bytes hctl

/-! The port groups (30_encoding R95): an operand within its wires is decoded uncut. -/

theorem decode_bufPort {c : Config} {addr : Nat} (v : Byte) (h : addr < c.depth) :
    decode c (.bufPort true addr v) = .op (.bufWrite addr v) := by
  simp [decode, Nat.mod_eq_of_lt h]

theorem decode_submitPort {c : Config} {len : Nat} (h : len < c.depth) :
    decode c (.submitPort true len) = .op (.submit len) := by
  simp [decode, Nat.mod_eq_of_lt h]

theorem decode_event {c : Config} {arg : Nat} (code : BitVec 3) (h : arg < 2 ^ c.sw) :
    decode c (.event true code arg) = decodeEventCode code arg := by
  simp [decode, Nat.mod_eq_of_lt h]

/-- Settles O1, row by row: the class of the byte, the wires of the port, the code of the state or the event. -/
theorem encodedInstructionDecodesBack : Obligations.EncodedInstructionDecodesBack := by
  intro c i hctl hwf
  cases i
  case jam => exact decode_wire8_eq_op.mpr (classify_eq_jam.mpr rfl)
  case esc => exact decode_wire8_eq_op.mpr ((classify_eq_esc hctl).mpr rfl)
  case data b => exact decode_wire8_eq_op.mpr (classify_eq_data.mpr (by simpa [Instr.wf] using hwf))
  case bufWrite addr v => exact decode_bufPort v (of_decide_eq_true hwf)
  case submit len => exact decode_submitPort (of_decide_eq_true hwf)
  case rxByte => rfl
  case reset => rfl
  case idle => exact decode_state_code c .idle
  case waitFree => exact decode_state_code c .waitFree
  case transmitted => exact decode_state_code c .transmitted
  case checkCollision => exact decode_state_code c .checkCollision
  case success => exact decode_state_code c .success
  case sendJam => exact decode_state_code c .sendJam
  case backoffDraw => exact decode_state_code c .backoffDraw
  case backoff => exact decode_state_code c .backoff
  case sendEsc => exact decode_state_code c .sendEsc
  case evtSymbolTx arg => exact decode_event 1 (of_decide_eq_true (Laws.EncodingFits.evtSymbolTx arg c hwf))
  case evtCollision arg => exact decode_event 2 (of_decide_eq_true (Laws.EncodingFits.evtCollision arg c hwf))
  case evtBackoff arg => exact decode_event 3 (of_decide_eq_true (Laws.EncodingFits.evtBackoff arg c hwf))
  case evtDelivered arg => exact decode_event 4 (of_decide_eq_true (Laws.EncodingFits.evtDelivered arg c hwf))
  case evtDone arg => exact decode_event 5 (of_decide_eq_true (Laws.EncodingFits.evtDone arg c hwf))
  case evtTriesExpired arg => exact decode_event 6 (of_decide_eq_true (Laws.EncodingFits.evtTriesExpired arg c hwf))

/-! The codes read the other way (10_state R21, 60_exceptions R194). -/

/-- The encoder gives back the sequencer code that an instruction was decoded from. -/
theorem encode_of_decodeStateCode (c : Config) {code : BitVec 4} {i : Instr} (h : decodeStateCode code = .op i) :
    encode c i = .seqState code := by
  unfold decodeStateCode at h
  split at h <;> cases h
  all_goals
    rename_i hcode
    exact congrArg OpWord.seqState (BitVec.eq_of_toNat_eq hcode.symm)

/-- The encoder gives back the event code and argument that an event was decoded from. -/
theorem encode_of_decodeEventCode (c : Config) {code : BitVec 3} {arg : Nat} {i : Instr}
    (h : decodeEventCode code arg = .op i) : encode c i = .event true code arg := by
  unfold decodeEventCode at h
  split at h <;> cases h
  all_goals
    rename_i hcode
    exact congrArg (OpWord.event true · arg) (BitVec.eq_of_toNat_eq hcode.symm)

/-- Settles O2, format by format: a strobe of 0 decodes to nothing, and within the wires no operand was cut. -/
theorem decodedWordEncodesBack : Obligations.DecodedWordEncodesBack := by
  intro c w i hfits hdecode
  cases w
  case wire8 b => rw [← decode_wire8_eq_op.mp hdecode, encode_classify]
  case bufPort we addr v =>
    cases we
    · cases hdecode
    · rw [decode_bufPort v (of_decide_eq_true hfits)] at hdecode; cases hdecode; rfl
  case submitPort strobe len =>
    cases strobe
    · cases hdecode
    · rw [decode_submitPort (of_decide_eq_true hfits)] at hdecode; cases hdecode; rfl
  case rxPort valid data last => cases valid <;> cases hdecode; rfl
  case rstPort rst => cases rst <;> cases hdecode; rfl
  case seqState code => exact encode_of_decodeStateCode c hdecode
  case event valid code arg =>
    cases valid
    · cases hdecode
    · rw [decode_event code (of_decide_eq_true hfits)] at hdecode; exact encode_of_decodeEventCode c hdecode

end Sys2Proof.Machine
end

section
/-! PROOFS. The words of a cycle (30_encoding R95, R96): what they decode to, run in order, is the cycle. -/

namespace Sys2Proof.Machine

/-- The instruction that a word carries, if it decodes. -/
def carriedBy (c : Config) (w : OpWord) : Option Instr :=
  match decode c w with
  | .op i => some i
  | .rejected _ => none

theorem carriedBy_bufPort (c : Config) (we : Bool) (addr : Nat) (v : Byte) :
    carriedBy c (.bufPort we addr v) = if we = true then some (.bufWrite (addr % c.depth) v) else none := by
  cases we <;> rfl

theorem carriedBy_submitPort (c : Config) (strobe : Bool) (len : Nat) :
    carriedBy c (.submitPort strobe len) = if strobe = true then some (.submit (len % c.depth)) else none := by
  cases strobe <;> rfl

theorem carriedBy_rxPort (c : Config) (valid : Bool) (data : Byte) (last : Bool) :
    carriedBy c (.rxPort valid data last) = if valid = true then some (.rxByte data last) else none := by
  cases valid <;> rfl

theorem carriedBy_state_code (c : Config) (m : MacState) : carriedBy c (.seqState m.code) = some m.instr := by
  rw [carriedBy, decode_state_code]

/-- One more word at the front, as one more list of at most one instruction. -/
theorem filterMap_carriedBy_cons (c : Config) (w : OpWord) (ws : List OpWord) :
    (w :: ws).filterMap (carriedBy c) = (carriedBy c w).toList ++ ws.filterMap (carriedBy c) := by
  rw [List.filterMap_cons]
  cases carriedBy c w <;> rfl

/-- The instructions of a cycle's words are the cycle's operations. -/
theorem filterMap_carriedBy_cycleWords (s : State) : (cycleWords s).filterMap (carriedBy s.cfg) = cycleOps s := by
  cases hr : s.pins.rst with
  | true => simp [cycleWords, cycleOps, hr, carriedBy, decode]
  | false =>
    simp only [cycleWords, cycleOps, hr, Bool.false_eq_true, if_false, filterMap_carriedBy_cons, List.filterMap_nil,
      carriedBy_bufPort, carriedBy_submitPort, carriedBy_rxPort, carriedBy_state_code, apply_ite Option.toList,
      Option.toList_some, Option.toList_none, List.append_nil, List.append_assoc]

/-! Running a cycle's operations. -/

theorem execAll_append (is js : List Instr) (s : State) :
    execAll (is ++ js) s = andThen (execAll is s) (execAll js) := by
  induction is generalizing s with
  | nil => rfl
  | cons i is ih =>
    simp only [List.cons_append, execAll]
    cases exec i s with
    | next t => exact ih t
    | fault e => rfl
    | refused e => rfl

theorem execAll_singleton (i : Instr) (s : State) : execAll [i] s = exec i s :=
  andThen_next_right (exec i s)

/-- A port operation runs where its strobe is 1. -/
theorem execAll_strobed (strobe : Bool) (i : Instr) (s : State) :
    execAll (if strobe = true then [i] else []) s = if strobe = true then exec i s else .next s := by
  cases strobe
  · rfl
  · exact execAll_singleton i s

/-! Each port group runs on the parameters and inputs that the cycle began with, which the groups before it have kept. -/

theorem execAll_writeGroup {c : Config} {p : Pins} {u : State} (hcfg : u.cfg = c) (hpins : u.pins = p) :
    execAll (if p.bufWe = true then [.bufWrite (p.bufAddr % c.depth) p.bufWdata] else []) u
      = .next (writtenState u) := by
  subst hcfg hpins
  exact (execAll_strobed _ _ u).trans (bufferPhase_eq u)

theorem execAll_submitGroup {c : Config} {p : Pins} {u : State} (hcfg : u.cfg = c) (hpins : u.pins = p) :
    execAll (if p.submit = true then [.submit (p.submitLen % c.depth)] else []) u = .next (submittedState u) := by
  subst hcfg hpins
  exact (execAll_strobed _ _ u).trans (submitPhase_eq u)

theorem execAll_receiveGroup {p : Pins} {u : State} (hpins : u.pins = p) :
    execAll (if p.rxValid = true then [.rxByte p.rxData p.rxLast] else []) u = .next (heardState u) := by
  subst hpins
  exact (execAll_strobed _ _ u).trans (receivePhase_eq u)

/-- The operations of a cycle with `rst = 1`. -/
theorem execAll_cycleOps_reset {s : State} (hr : s.pins.rst = true) (u : State) :
    execAll (cycleOps s) u = .next (applyReset u) := by
  rw [cycleOps, if_pos hr]
  rfl

/-- The operations of a cycle without reset bring it to its sequencer rule, which comes last. -/
theorem execAll_cycleOps_no_reset {s : State} (hr : s.pins.rst = false) :
    execAll (cycleOps s) (beginCycle s) = exec s.mac.state.instr (beforeSequencer s) := by
  have hwrite := execAll_writeGroup (u := beginCycle s) (c := s.cfg) (p := s.pins) rfl rfl
  have hsubmit := execAll_submitGroup (u := writtenState (beginCycle s)) (c := s.cfg) (p := s.pins) rfl rfl
  have hreceive := execAll_receiveGroup (u := submittedState (writtenState (beginCycle s))) (p := s.pins) (by simp)
  rw [cycleOps, if_neg (by simp [hr]), execAll_append, execAll_append, execAll_append, hwrite, andThen_next, hsubmit,
    andThen_next, hreceive, andThen_next, execAll_singleton, beforeSequencer]

/-- Settles O28: the decoded words are the cycle's operations, and run in order they make the cycle. -/
theorem stepRunsTheDecodedOperations : Obligations.StepRunsTheDecodedOperations := by
  intro s hlegal
  refine ⟨filterMap_carriedBy_cycleWords s, ?_⟩
  rw [step, if_pos hlegal]
  cases hr : s.pins.rst with
  | true => rw [runCycle_reset hr, execAll_cycleOps_reset hr, andThen_next]
  | false => rw [runCycle_no_reset hr, execAll_cycleOps_no_reset hr]

end Sys2Proof.Machine
end

section
/-! PROOFS. The bytes of a send (40_mac R126, R132): each rule of the sequencer adds to the traces what it adds to the
progress of the symbol. -/

namespace Sys2Proof.Machine

/-! What the rules leave of the message and of the symbol in progress. -/

/-- Only SUCCESS moves the index (10_state R22). -/
theorem exec_instr_txIdx {m : MacState} {u v : State} (hm : m ≠ .success) (h : exec m.instr u = .next v) :
    v.mac.txIdx = u.mac.txIdx := by
  cases m
  case idle => cases h; rfl
  case waitFree => rcases exec_waitFree_next h with ⟨-, rfl⟩ | ⟨-, -, rfl⟩ | ⟨-, -, -, -, rfl⟩ <;> simp
  case transmitted => rcases exec_transmitted_next h with ⟨-, rfl⟩ | ⟨-, rfl⟩ <;> simp
  case checkCollision => rcases exec_checkCollision_next h with ⟨-, rfl⟩ | ⟨-, rfl⟩ <;> simp
  case success => exact absurd rfl hm
  case sendJam => rcases exec_sendJam_next h with ⟨-, rfl⟩ | ⟨-, -, rfl⟩ | ⟨-, -, rfl⟩ <;> simp
  case backoffDraw => rcases exec_backoffDraw_next h with ⟨-, rfl⟩ | ⟨-, rfl⟩ <;> simp
  case backoff => rcases exec_backoff_next h with ⟨-, rfl⟩ | ⟨-, rfl⟩ <;> simp
  case sendEsc => rcases exec_sendEsc_next h with ⟨-, rfl⟩ | ⟨-, rfl⟩ <;> simp

theorem exec_instr_message {m : MacState} {u v : State} (h : exec m.instr u = .next v) : message v = message u := by
  obtain ⟨⟨-, -, -, -, hseed⟩, -, hbuffer⟩ := exec_instr_frame h
  exact message_congr (exec_instr_txLen h) hbuffer hseed

theorem exec_instr_currentSymbol {m : MacState} {u v : State} (hm : m ≠ .success) (h : exec m.instr u = .next v) :
    currentSymbol v = currentSymbol u := by
  obtain ⟨⟨-, -, -, -, hseed⟩, -, hbuffer⟩ := exec_instr_frame h
  rw [currentSymbol, currentSymbol, exec_instr_txIdx hm h, bufferByte_congr hbuffer hseed]

/-- Within its bound the count is the exponent of the draw (40_mac R118). -/
theorem drawExponent_eq {s : State} (h : s.mac.retryCnt ≤ s.cfg.maxTries) : drawExponent s = s.mac.retryCnt :=
  Nat.min_eq_left h

/-! The progress of a send. -/

@[simp] theorem postSamples_append_pre (l : List (SampleKind × Bool)) (busy : Bool) :
    postSamples (l ++ [(.pre, busy)]) = postSamples l := by simp [postSamples]

@[simp] theorem postSamples_append_post (l : List (SampleKind × Bool)) (busy : Bool) :
    postSamples (l ++ [(.post, busy)]) = postSamples l ++ [busy] := by simp [postSamples]

/-- The progress of a send reads the parameters, the MAC's registers, the power-up and three traces. -/
theorem SendProgress.congr {tr0 : Traces} {u v : State} (h : SendProgress tr0 u) (hcfg : v.cfg = u.cfg)
    (hmac : v.mac = u.mac) (hseed : v.seed = u.seed) (htx : v.tr.tx = u.tr.tx) (hsamples : v.tr.samples = u.tr.samples)
    (hdraws : v.tr.draws = u.tr.draws) : SendProgress tr0 v := by
  obtain ⟨_, _, _, _, _, _, _, _, _⟩ := u
  obtain ⟨_, _, _, _, _, _, _, _, _⟩ := v
  subst hcfg hmac hseed
  unfold SendProgress
  rw [htx, hsamples, hdraws]
  exact h

/-- Two lists grow by the same elements. -/
def GrowAlike {α : Type} (x x' y y' : List α) : Prop := ∃ w, x' = x ++ w ∧ y' = y ++ w

theorem GrowAlike.same {α : Type} {x x' y y' : List α} (hx : x' = x) (hy : y' = y) : GrowAlike x x' y y' :=
  ⟨[], by simpa using hx, by simpa using hy⟩

/-- What stands before the progress of the symbol stays before its new progress. -/
theorem GrowAlike.append_left {α : Type} {x x' y y' before : List α} (h : GrowAlike x x' y y') (hx : x = before ++ y) :
    x' = before ++ y' := by
  obtain ⟨w, rfl, rfl⟩ := h
  rw [hx, List.append_assoc]

/-- From `u` to `v`, TXTRACE, the post samples and the draws grow by what the progress of the symbol grows by (R132). -/
structure GrowsByTheRule (u v : State) : Prop where
  wire : GrowAlike u.tr.tx v.tr.tx (currentWire u) (currentWire v)
  posts : GrowAlike (postSamples u.tr.samples) (postSamples v.tr.samples) (currentPosts u) (currentPosts v)
  draws : GrowAlike (u.tr.draws.map Prod.fst) (v.tr.draws.map Prod.fst) (currentDraws u) (currentDraws v)

theorem GrowsByTheRule.refl (u : State) : GrowsByTheRule u u := ⟨.same rfl rfl, .same rfl rfl, .same rfl rfl⟩

/-- The symbol sent, not yet judged: WAIT_FREE waits, polls, or writes it. -/
theorem grows_waitFree {u v : State} (hs : u.mac.state = .waitFree) (he : exec .waitFree u = .next v) :
    GrowsByTheRule u v := by
  have hsym := exec_instr_currentSymbol (m := .waitFree) nofun he
  rcases exec_waitFree_next he with ⟨-, rfl⟩ | ⟨-, -, rfl⟩ | ⟨-, -, -, -, rfl⟩
  · constructor <;> apply GrowAlike.same <;> simp [currentWire, currentPosts, currentDraws, hs, hsym]
  · constructor <;> apply GrowAlike.same <;> simp [currentWire, currentPosts, currentDraws, hs, hsym]
  · constructor
    case wire => exact ⟨[currentSymbol u], by simp, by simp [currentWire, hs, hsym]⟩
    all_goals apply GrowAlike.same <;> simp [currentPosts, currentDraws, hs]

theorem grows_transmitted {u v : State} (hs : u.mac.state = .transmitted) (he : exec .transmitted u = .next v) :
    GrowsByTheRule u v := by
  have hsym := exec_instr_currentSymbol (m := .transmitted) nofun he
  rcases exec_transmitted_next he with ⟨-, rfl⟩ | ⟨-, rfl⟩ <;> constructor <;> apply GrowAlike.same <;>
    simp [currentWire, currentPosts, currentDraws, hs, hsym]

/-- The post sample is `busy` for a collision and `free` for the delivery. -/
theorem grows_checkCollision {u v : State} (hs : u.mac.state = .checkCollision)
    (he : exec .checkCollision u = .next v) : GrowsByTheRule u v := by
  have hsym := exec_instr_currentSymbol (m := .checkCollision) nofun he
  rcases exec_checkCollision_next he with ⟨hbusy, rfl⟩ | ⟨hfree, rfl⟩ <;> constructor
  case inl.posts => exact ⟨[true], by simp [hbusy], by simp [currentPosts, hs, List.replicate_succ']⟩
  case inr.posts => exact ⟨[false], by simp [hfree], by simp [currentPosts, symbolPosts, hs]⟩
  all_goals apply GrowAlike.same <;> simp [currentWire, currentDraws, hs, hsym]

/-- The Jam completes the attempt: it is counted, or it was the last one. -/
theorem grows_sendJam {u v : State} (h : Inv u) (hs : u.mac.state = .sendJam) (he : exec .sendJam u = .next v) :
    GrowsByTheRule u v := by
  have hsym := exec_instr_currentSymbol (m := .sendJam) nofun he
  obtain ⟨-, herr⟩ := h.noReportWhileBusy (by rw [hs]; nofun)
  rcases exec_sendJam_next he with ⟨-, rfl⟩ | ⟨-, -, rfl⟩ | ⟨-, hlast, rfl⟩
  · exact .refl _
  · constructor
    case wire => exact ⟨[u.cfg.jamByte], by simp, by simp [currentWire, hs, hsym, attempts_succ]⟩
    all_goals apply GrowAlike.same <;> simp [currentPosts, currentDraws, hs]
  · constructor
    case wire => exact ⟨[u.cfg.jamByte], by simp, by simp [currentWire, hs, hsym, hlast, attempts_succ]⟩
    all_goals apply GrowAlike.same <;> simp [currentPosts, currentDraws, hs, hlast]

/-- The exponent of the draw is the count, which is at least 1. -/
theorem grows_backoffDraw {u v : State} (h : Inv u) (hs : u.mac.state = .backoffDraw)
    (he : exec .backoffDraw u = .next v) : GrowsByTheRule u v := by
  have hk := drawExponent_eq h.retryBounded
  have hcount : u.mac.retryCnt - 1 + 1 = u.mac.retryCnt := Nat.sub_add_cancel (h.retryCounted hs)
  have hdraws : symbolDraws u.mac.retryCnt = symbolDraws (u.mac.retryCnt - 1) ++ [u.mac.retryCnt] := by
    have := symbolDraws_succ (u.mac.retryCnt - 1)
    rwa [hcount] at this
  rcases exec_backoffDraw_next he with ⟨-, rfl⟩ | ⟨-, rfl⟩
  · exact .refl _
  · constructor
    case draws => exact ⟨[u.mac.retryCnt], by simp [hk], by simp [currentDraws, hs, hdraws]⟩
    case wire => exact .same rfl (by simp only [currentWire, hs]; rfl)
    case posts => exact .same rfl (by simp [currentPosts, hs])

theorem grows_backoff {u v : State} (hs : u.mac.state = .backoff) (he : exec .backoff u = .next v) :
    GrowsByTheRule u v := by
  have hsym := exec_instr_currentSymbol (m := .backoff) nofun he
  rcases exec_backoff_next he with ⟨-, rfl⟩ | ⟨-, rfl⟩ <;> constructor <;> apply GrowAlike.same <;>
    simp [currentWire, currentPosts, currentDraws, hs, hsym]

/-- The Escape after the last symbol. -/
theorem grows_sendEsc {u v : State} (h : Inv u) (hs : u.mac.state = .sendEsc) (he : exec .sendEsc u = .next v) :
    GrowsByTheRule u v := by
  obtain ⟨-, herr⟩ := h.noReportWhileBusy (by rw [hs]; nofun)
  rcases exec_sendEsc_next he with ⟨-, rfl⟩ | ⟨-, rfl⟩
  · exact .refl _
  · constructor
    case wire => exact ⟨[u.cfg.escByte], by simp, by simp [currentWire, hs, herr]⟩
    all_goals apply GrowAlike.same <;> simp [currentPosts, currentDraws, hs, herr]

/-- In the course of one symbol, and in the Escape. -/
theorem grows_exec_sequencer {u v : State} (h : Inv u) (hne : u.mac.state ≠ .success)
    (he : exec u.mac.state.instr u = .next v) : GrowsByTheRule u v := by
  cases hs : u.mac.state <;> rw [hs] at he hne
  case idle => cases he; exact .refl _
  case waitFree => exact grows_waitFree hs he
  case transmitted => exact grows_transmitted hs he
  case checkCollision => exact grows_checkCollision hs he
  case success => exact absurd rfl hne
  case sendJam => exact grows_sendJam h hs he
  case backoffDraw => exact grows_backoffDraw h hs he
  case backoff => exact grows_backoff hs he
  case sendEsc => exact grows_sendEsc h hs he

/-! The end of a send. -/

/-- A rule that ends the send does it with one report: SEND_ESC after the last symbol, SEND_JAM inside the message. -/
theorem exec_sequencer_ends {u v : State} (h : Inv u) (hbusy : u.mac.state ≠ .idle)
    (he : exec u.mac.state.instr u = .next v) (hidle : v.mac.state = .idle) :
    (v.mac.stDone = true ∧ v.mac.stErr = false ∧ v.mac.txIdx = v.mac.txLen)
    ∨ (v.mac.stDone = false ∧ v.mac.stErr = true ∧ v.mac.errIdx = v.mac.txIdx ∧ v.mac.txIdx < v.mac.txLen) := by
  obtain ⟨hdone, herr⟩ := h.noReportWhileBusy hbusy
  cases hs : u.mac.state <;> rw [hs] at he
  case idle => exact absurd hs hbusy
  case waitFree => rcases exec_waitFree_next he with ⟨-, rfl⟩ | ⟨-, -, rfl⟩ | ⟨-, -, -, -, rfl⟩ <;> simp [hs] at hidle
  case transmitted => rcases exec_transmitted_next he with ⟨-, rfl⟩ | ⟨-, rfl⟩ <;> simp [hs] at hidle
  case checkCollision => rcases exec_checkCollision_next he with ⟨-, rfl⟩ | ⟨-, rfl⟩ <;> simp at hidle
  case success =>
    rw [exec_success_next he] at hidle
    by_cases hlast : u.mac.txIdx + 1 = u.mac.txLen <;> simp [hlast] at hidle
  case sendJam =>
    rcases exec_sendJam_next he with ⟨-, rfl⟩ | ⟨-, -, rfl⟩ | ⟨-, -, rfl⟩
    · simp [hs] at hidle
    · simp at hidle
    · exact .inr ⟨hdone, rfl, rfl, h.indexInside (by rw [hs]; rfl)⟩
  case backoffDraw => rcases exec_backoffDraw_next he with ⟨-, rfl⟩ | ⟨-, rfl⟩ <;> simp [hs] at hidle
  case backoff => rcases exec_backoff_next he with ⟨-, rfl⟩ | ⟨-, rfl⟩ <;> simp [hs] at hidle
  case sendEsc =>
    rcases exec_sendEsc_next he with ⟨-, rfl⟩ | ⟨-, rfl⟩
    · simp [hs] at hidle
    · exact .inl ⟨rfl, herr, h.indexAtEnd hs⟩

/-! From one symbol to the next. -/

/-- The symbol at the index joins those sent to the end, with its number of collisions. -/
theorem message_zip_snoc {s : State} {counts : List Nat} (hlen : counts.length = s.mac.txIdx)
    (hinside : s.mac.txIdx < s.mac.txLen) (n : Nat) :
    (message s).zip (counts ++ [n]) = (message s).zip counts ++ [(currentSymbol s, n)] := by
  have hidx : s.mac.txIdx < (message s).length := by rwa [message_length]
  have hget : (message s)[s.mac.txIdx] = currentSymbol s := by simp [message, currentSymbol]
  have hsplit : message s =
      (message s).take s.mac.txIdx ++ (message s)[s.mac.txIdx] :: (message s).drop (s.mac.txIdx + 1) := by simp
  have htake : ((message s).take s.mac.txIdx).length = counts.length := by
    rw [List.length_take, hlen]; omega
  rw [hsplit, List.zip_append htake, ← List.append_nil counts, List.zip_append htake]
  simp [hget]

theorem deliveredWire_snoc (c : Config) (sent : List (Byte × Nat)) (b : Byte) (n : Nat) :
    deliveredWire c (sent ++ [(b, n)]) = deliveredWire c sent ++ (attempts c b n ++ [b]) := by
  simp [deliveredWire]

/-- SUCCESS writes nothing: it turns the progress of the symbol into one more symbol delivered. -/
theorem sendProgress_success {tr0 : Traces} {u v : State} (h : Inv u) (hprog : SendProgress tr0 u)
    (hs : u.mac.state = .success) (he : exec .success u = .next v) : SendProgress tr0 v := by
  have hinside := h.indexInside (by rw [hs]; rfl)
  have hmsg := exec_instr_message (m := .success) he
  have hnext : currentWire v = [] ∧ currentPosts v = [] ∧ currentDraws v = [] ∧ v.mac.state ≠ .idle := by
    rw [exec_success_next he]
    by_cases hlast : u.mac.txIdx + 1 = u.mac.txLen <;>
      simp [currentWire, currentPosts, currentDraws, hlast, attempts_zero, symbolDraws]
  obtain ⟨hwire', hposts', hdraws', hbusy⟩ := hnext
  obtain ⟨counts, hlen, hle, hwire, hposts, hdraws, -⟩ := hprog
  simp only [currentWire, currentPosts, currentDraws, hs] at hwire hposts hdraws
  refine ⟨counts ++ [u.mac.retryCnt], ?_, ?_, ?_, ?_, ?_, fun hi => absurd hi hbusy⟩
  · rw [exec_success_next he]; simp [hlen]
  · rw [exec_success_next he]
    simpa [or_imp, forall_and, h.retryBounded] using hle
  · rw [hmsg, message_zip_snoc hlen hinside, hwire', deliveredWire_snoc, exec_success_next he]
    simpa using hwire
  · rw [hposts', exec_success_next he]
    simpa using hposts
  · rw [hdraws', exec_success_next he]
    simpa using hdraws

theorem sendProgress_exec_sequencer {tr0 : Traces} {u v : State} (h : Inv u) (hprog : SendProgress tr0 u)
    (hbusy : u.mac.state ≠ .idle) (he : exec u.mac.state.instr u = .next v) : SendProgress tr0 v := by
  by_cases hs : u.mac.state = .success
  · exact sendProgress_success h hprog hs (by rwa [hs] at he)
  · obtain ⟨hwire', hposts', hdraws'⟩ := grows_exec_sequencer h hs he
    obtain ⟨⟨hcfg, -⟩, -⟩ := exec_instr_frame he
    obtain ⟨counts, hlen, hle, hwire, hposts, hdraws, -⟩ := hprog
    refine ⟨counts, ?_, ?_, ?_, hposts'.append_left hposts, hdraws'.append_left hdraws, exec_sequencer_ends h hbusy he⟩
    · rw [exec_instr_txIdx hs he, hlen]
    · rwa [hcfg]
    · rw [hcfg, exec_instr_message he]
      exact hwire'.append_left hwire

/-- Settles O48: outside IDLE the port operations leave the MAC alone, and each rule of the sequencer adds to the traces
what it adds to the progress. -/
theorem sendPutsExactlyTheRuleOnTheWire : Obligations.SendPutsExactlyTheRuleOnTheWire := by
  intro tr0 s t h hprog hbusy hr hstep
  obtain ⟨v, hv, rfl⟩ := step_no_reset hstep hr
  have hmac := beforeSequencer_mac_busy hbusy
  obtain ⟨-, -, -, -, htx, hsamples, hdraws, -⟩ := beforeSequencer_macOutputs s
  have hbefore : SendProgress tr0 (beforeSequencer s) :=
    hprog.congr (beforeSequencer_cfg s) hmac (beforeSequencer_seed s) htx hsamples hdraws
  rw [← hmac] at hbusy hv
  exact (sendProgress_exec_sequencer (inv_beforeSequencer h) hbefore hbusy hv).congr rfl rfl rfl rfl rfl rfl

/-! The beginning of a send. -/

/-- The MAC after an accepted SUBMIT, whatever the write group does in the same cycle. -/
theorem beforeSequencer_mac_submit {s : State} (hidle : s.mac.state = .idle) (hmode : s.cfg.mode = .sender)
    (hsubmit : s.pins.submit = true) :
    (beforeSequencer s).mac =
      { (acceptSubmit (s.pins.submitLen % s.cfg.depth) s).mac with txbuf := bufferAfter s } := by
  rw [beforeSequencer_mac, submittedState_mac, if_pos ⟨hsubmit, hidle, hmode⟩]
  rfl

/-- A send at its first symbol, or an empty one at its Escape, has put nothing on the wire. -/
theorem sendProgress_of_fresh {tr0 : Traces} {s : State} (hstate : s.mac.state = .waitFree ∨ s.mac.state = .sendEsc)
    (hidx : s.mac.txIdx = 0) (hretry : s.mac.retryCnt = 0) (htx : s.tr.tx = tr0.tx)
    (hsamples : s.tr.samples = tr0.samples) (hdraws : s.tr.draws = tr0.draws) : SendProgress tr0 s := by
  refine ⟨[], ?_⟩
  rcases hstate with hs | hs <;>
    simp [currentWire, currentPosts, currentDraws, deliveredWire, attempts_zero, symbolDraws, hs, hidx, hretry, htx,
      hsamples, hdraws]

/-- Settles O47: the step from IDLE is the accepted SUBMIT, and no trace of the MAC grows in it. -/
theorem acceptedSubmitBeginsTheSend : Obligations.AcceptedSubmitBeginsTheSend := by
  intro s t h hr hsubmit hidle hmode hstep
  rw [step_idle h.legal hr hidle] at hstep
  cases hstep
  have hmac := beforeSequencer_mac_submit hidle hmode hsubmit
  obtain ⟨-, -, -, -, htx, hsamples, hdraws, -⟩ := beforeSequencer_macOutputs s
  have hstate : (beforeSequencer s).mac.state = .waitFree ∨ (beforeSequencer s).mac.state = .sendEsc := by
    by_cases hlen : s.pins.submitLen % s.cfg.depth = 0 <;> simp [hmac, hlen]
  exact ⟨sendProgress_of_fresh hstate (by simp [hmac]) (by simp [hmac]) htx hsamples hdraws, by simp [hmac]⟩

end Sys2Proof.Machine
end

section
/-! PROOFS. The operations of the MAC (40_mac R111 to R123): each rule as an equation per case, and its frame. -/

namespace Sys2Proof.Machine

/-! The port operations. -/

theorem exec_bufWrite_busy {s : State} (a : Nat) (v : Byte) (hbusy : s.mac.state ≠ .idle) :
    exec (.bufWrite a v) s = .next s :=
  if_neg hbusy

theorem exec_submit_ignored {s : State} (n : Nat) (h : ¬ (s.mac.state = .idle ∧ s.cfg.mode = .sender)) :
    exec (.submit n) s = .next s :=
  if_neg h

/-- Settles O12: the accepted write is `memWrite` inside the buffer. -/
theorem bufWriteStoresOnlyInIdle : Obligations.BufWriteStoresOnlyInIdle := by
  intro s a v ha
  refine ⟨fun hidle => ?_, exec_bufWrite_busy a v⟩
  refine ⟨_, (exec_bufWrite_idle a v hidle).trans (memWrite_inside v ha), ?_, ?_, rfl, rfl, rfl, rfl, ?_⟩
  · exact memRead_written_same (s := s) rfl rfl ha
  · exact fun b hb => memRead_written_other rfl rfl rfl hb
  · exact ⟨rfl, rfl, rfl, rfl, rfl⟩

/-- Settles O13: `submit_ready` is the condition under which SUBMIT is accepted, and `acceptSubmit` leaves IDLE. -/
theorem submitStartsASend : Obligations.SubmitStartsASend := by
  intro s len hlen
  refine ⟨submitReady_iff s, macBusy_iff s, fun hready => ?_, fun hnot => ?_⟩
  · obtain ⟨hidle, hmode⟩ := (submitReady_iff s).mp hready
    have hexec : exec (.submit len) s = .next (acceptSubmit len s) := by
      rw [exec_submit_ready len hidle hmode, if_pos hlen]
    have hbuffer : SameBuffer s (acceptSubmit len s) := memRead_congr rfl rfl rfl
    have hbusy : (acceptSubmit len s).mac.state ≠ .idle := by by_cases h0 : len = 0 <;> simp [h0]
    have hnotReady : submitReady (acceptSubmit len s) = false :=
      eq_false_of_ne fun hr => hbusy ((submitReady_iff _).mp hr).1
    refine ⟨_, hexec, rfl, rfl, rfl, rfl, rfl, rfl, hnotReady, (macBusy_iff _).mpr hbusy, ?_, ?_, rfl, rfl, rfl, rfl,
      rfl, ⟨rfl, rfl, rfl, rfl, rfl⟩, hbuffer⟩
    · exact fun h0 => if_pos h0
    · exact fun h0 => if_neg h0
  · exact exec_submit_ignored len fun h => by simp [(submitReady_iff s).mpr h] at hnot

/-- Settles O16: with neither strobe accepted the port operations leave the registers alone, and IDLE does nothing. -/
theorem idleStaysUntilAStrobeIsAccepted : Obligations.IdleStaysUntilAStrobeIsAccepted := by
  refine ⟨fun _ => rfl, fun s hlegal hidle hr hwrite hsubmit => ?_⟩
  have hnot : ¬ (s.pins.submit = true ∧ s.mac.state = .idle ∧ s.cfg.mode = .sender) := by
    rintro ⟨h1, -, h2⟩
    rcases hsubmit with h | h
    · simp [h1] at h
    · simp [h2] at h
  have hmac : (beforeSequencer s).mac = s.mac := by
    rw [beforeSequencer_mac, submittedState_mac]
    exact (if_neg hnot).trans (by simp [bufferAfter, hwrite])
  exact ⟨_, step_idle hlegal hr hidle, hmac, beforeSequencer_macOutputs s⟩

/-! What every rule of the sequencer leaves alone, and the two shapes that the timed waits share. -/

theorem exec_instr_sameBuffer {m : MacState} {s t : State} (h : exec m.instr s = .next t) : SameBuffer s t := by
  obtain ⟨⟨hcfg, -, -, -, hseed⟩, -, hbuffer⟩ := exec_instr_frame h
  exact memRead_congr hcfg hbuffer hseed

/-- A rule that waits changes the timer alone, and that on a tick (40_mac R128). -/
theorem exec_countTick_frame {m : MacState} {s : State} (h : exec m.instr s = .next (countTick s)) :
    ∃ t, exec m.instr s = .next t
      ∧ t.mac = { s.mac with timer := if s.pins.tick = true then s.mac.timer - 1 else s.mac.timer }
      ∧ t.lookahead = s.lookahead ∧ t.out = s.out ∧ t.tr = s.tr ∧ SameEnvironment s t ∧ SameBuffer s t :=
  ⟨_, h, countTick_mac s, countTick_lookahead s, countTick_out s, countTick_tr s, (exec_instr_frame h).1,
    exec_instr_sameBuffer h⟩

/-- A rule that only moves on changes the sequencer's state alone. -/
theorem exec_goTo_frame {m m' : MacState} {s : State} (h : exec m.instr s = .next (goTo m' s)) :
    ∃ t, exec m.instr s = .next t ∧ t.mac = { s.mac with state := m' }
      ∧ t.lookahead = s.lookahead ∧ t.out = s.out ∧ t.tr = s.tr ∧ SameEnvironment s t ∧ SameBuffer s t :=
  ⟨_, h, rfl, rfl, rfl, rfl, (exec_instr_frame h).1, exec_instr_sameBuffer h⟩

/-! WAIT_FREE (40_mac R114). -/

theorem exec_waitFree_wait {s : State} (ht : s.mac.timer ≠ 0) : exec .waitFree s = .next (countTick s) := if_pos ht

theorem exec_waitFree_poll {s : State} (ht : s.mac.timer = 0)
    (hnot : ¬ (s.pins.chanBusy = false ∧ s.pins.txReady = true)) :
    exec .waitFree s = .next (loadTimer s.cfg.pollInterval (sample .pre s)) :=
  (if_neg (not_not.mpr ht)).trans (if_neg hnot)

theorem exec_waitFree_send {s : State} (ht : s.mac.timer = 0) (hfree : s.pins.chanBusy = false)
    (hready : s.pins.txReady = true) (hidx : s.mac.txIdx < s.cfg.depth) :
    exec .waitFree s = .next (driveEvent .symbolTx (symbolArg s.cfg (currentSymbol s))
      (goTo .transmitted (loadTimer s.cfg.collisionWindow (txByte (currentSymbol s) (sample .pre s))))) := by
  simp only [exec, execWaitFree, symbolIndex, ht, hfree, hready, memRead_inside hidx, currentSymbol, execEvtSymbolTx,
    ne_eq, not_true_eq_false, and_self, if_true, if_false]

/-- Settles O17: the three cases of the rule. -/
theorem waitFreeSendsOnAFreeSample : Obligations.WaitFreeSendsOnAFreeSample := by
  intro s hidx
  refine ⟨fun ht => ?_, fun ht hnot => ?_, fun ht hfree hready => ?_⟩
  · exact exec_countTick_frame (m := .waitFree) (exec_waitFree_wait ht)
  · have hexec := exec_waitFree_poll ht (by rcases hnot with h | h <;> simp [h])
    have hframe := exec_instr_frame (m := .waitFree) hexec
    exact ⟨_, hexec, rfl, rfl, rfl, rfl, hframe.1, exec_instr_sameBuffer (m := .waitFree) hexec⟩
  · have hexec := exec_waitFree_send ht hfree hready hidx
    obtain ⟨henv, hdecoder, -⟩ := exec_instr_frame (m := .waitFree) hexec
    refine ⟨_, currentSymbol s, hexec, memRead_inside hidx, rfl, rfl, rfl, by simp [hfree], ?_, rfl, rfl, rfl, hdecoder,
      henv, exec_instr_sameBuffer (m := .waitFree) hexec⟩
    exact ⟨_, rfl, rfl, fun hfits => if_pos hfits⟩

/-! TRANSMITTED and BACKOFF (40_mac R115, R120). -/

theorem exec_transmitted_wait {s : State} (ht : s.mac.timer ≠ 0) : exec .transmitted s = .next (countTick s) := if_pos ht

theorem exec_transmitted_end {s : State} (ht : s.mac.timer = 0) :
    exec .transmitted s = .next (goTo .checkCollision s) :=
  if_neg (not_not.mpr ht)

theorem exec_backoff_wait {s : State} (ht : s.mac.timer ≠ 0) : exec .backoff s = .next (countTick s) := if_pos ht

theorem exec_backoff_end {s : State} (ht : s.mac.timer = 0) : exec .backoff s = .next (goTo .waitFree s) :=
  if_neg (not_not.mpr ht)

/-- Settles O18: a timed wait, then CHECK_COLLISION. -/
theorem transmittedWaitsOutTheWindow : Obligations.TransmittedWaitsOutTheWindow := fun _ =>
  ⟨fun ht => exec_countTick_frame (m := .transmitted) (exec_transmitted_wait ht),
    fun ht => exec_goTo_frame (m := .transmitted) (exec_transmitted_end ht)⟩

/-- Settles O23: a timed wait, then WAIT_FREE. -/
theorem backoffRetriesTheSameSymbol : Obligations.BackoffRetriesTheSameSymbol := fun _ =>
  ⟨fun ht => exec_countTick_frame (m := .backoff) (exec_backoff_wait ht),
    fun ht => exec_goTo_frame (m := .backoff) (exec_backoff_end ht)⟩

/-! CHECK_COLLISION (40_mac R116). -/

theorem exec_checkCollision_busy {s : State} (hbusy : s.pins.chanBusy = true) :
    exec .checkCollision s = .next (driveEvent .collision s.mac.retryCnt (goTo .sendJam (sample .post s))) :=
  if_pos hbusy

theorem exec_checkCollision_free {s : State} (hfree : s.pins.chanBusy = false) :
    exec .checkCollision s = .next (goTo .success (sample .post s)) :=
  if_neg (by simp [hfree])

/-- Settles O19: the sample is the value of the channel, by which the rule decides. -/
theorem checkCollisionSamplesOnce : Obligations.CheckCollisionSamplesOnce := by
  intro s
  refine ⟨fun hbusy => ?_, fun hfree => ?_⟩
  · have hexec := exec_checkCollision_busy hbusy
    exact ⟨_, hexec, rfl, rfl, by simp [hbusy], rfl, (exec_instr_frame (m := .checkCollision) hexec).1,
      exec_instr_sameBuffer (m := .checkCollision) hexec⟩
  · have hexec := exec_checkCollision_free hfree
    exact ⟨_, hexec, rfl, rfl, by simp [hfree], rfl, (exec_instr_frame (m := .checkCollision) hexec).1,
      exec_instr_sameBuffer (m := .checkCollision) hexec⟩

/-! BACKOFF_DRAW (40_mac R118, R119). -/

theorem drawCandidate_eq {s : State} (h : s.mac.retryCnt ≤ s.cfg.maxTries) :
    drawCandidate s = s.pins.rng % 2 ^ (s.mac.retryCnt + 1) := by
  rw [drawCandidate, drawExponent_eq h]

/-- A candidate in the range is the slot count. -/
theorem exec_backoffDraw_accept {s : State} (h : s.mac.retryCnt ≤ s.cfg.maxTries) {d : Nat}
    (hd : d = s.pins.rng % 2 ^ (s.mac.retryCnt + 1)) (hrange : d ≤ 2 ^ s.mac.retryCnt) :
    exec .backoffDraw s = .next (driveEvent .backoff d (goTo .backoff
      (recordDraw s.mac.retryCnt d (loadTimer (d * s.cfg.slotTime) { s with mac.slotCnt := d })))) := by
  rw [← drawCandidate_eq h] at hd
  rw [← drawExponent_eq h] at hrange ⊢
  subst hd
  exact if_pos hrange

theorem exec_backoffDraw_reject {s : State} (h : s.mac.retryCnt ≤ s.cfg.maxTries)
    (hbeyond : 2 ^ s.mac.retryCnt < s.pins.rng % 2 ^ (s.mac.retryCnt + 1)) : exec .backoffDraw s = .next s := by
  rw [← drawCandidate_eq h, ← drawExponent_eq h] at hbeyond
  exact if_neg (Nat.not_le.mpr hbeyond)

/-- Settles O21: the two cases of the rule, with `k = retry_cnt`. -/
theorem backoffDrawAcceptsOrLooksAgain : Obligations.BackoffDrawAcceptsOrLooksAgain := by
  intro s _ hretry
  refine ⟨fun d hd hrange => ?_, exec_backoffDraw_reject hretry⟩
  have hexec := exec_backoffDraw_accept hretry hd hrange
  exact ⟨_, hexec, rfl, rfl, rfl, rfl, (exec_instr_frame (m := .backoffDraw) hexec).1,
    exec_instr_sameBuffer (m := .backoffDraw) hexec⟩

/-- Settles O22: the word `d` itself draws `d`, since it fits the `k + 1` bits that are looked at. -/
theorem everySlotCountInRangeCanBeDrawn : Obligations.EverySlotCountInRangeCanBeDrawn := by
  intro s d _ hretry hrange
  have hbits : d < 2 ^ (s.mac.retryCnt + 1) :=
    lt_of_le_of_lt hrange (Nat.pow_lt_pow_right one_lt_two (Nat.lt_succ_self _))
  have hword : d < 2 ^ s.cfg.sw := lt_of_lt_of_le hbits (Nat.pow_le_pow_right two_pos (Nat.succ_le_succ hretry))
  exact ⟨d, _, hword, exec_backoffDraw_accept (s := { s with pins.rng := d }) hretry (Nat.mod_eq_of_lt hbits).symm hrange,
    rfl, rfl, rfl⟩

/-! SUCCESS (40_mac R121). -/

/-- Settles O24: one rule without a case, but for where it leads. -/
theorem successAdvancesToTheNextSymbol : Obligations.SuccessAdvancesToTheNextSymbol := by
  intro s
  have hexec : exec .success s = .next (driveEvent .delivered s.mac.retryCnt
      (goTo (if s.mac.txIdx + 1 = s.mac.txLen then .sendEsc else .waitFree)
        (setIndex (s.mac.txIdx + 1) (setRetry 0 s)))) := rfl
  exact ⟨_, hexec, fun hlast => by simp [hlast], fun hmore => by simp [hmore], rfl, rfl, rfl,
    (exec_instr_frame (m := .success) hexec).1, exec_instr_sameBuffer (m := .success) hexec⟩

/-! SEND_JAM and SEND_ESC (40_mac R117, R122, R129). -/

theorem exec_sendJam_wait {s : State} (hready : s.pins.txReady = false) : exec .sendJam s = .next s :=
  if_neg (by simp [hready])

theorem exec_sendJam_count {s : State} (hready : s.pins.txReady = true) (hmore : s.mac.retryCnt ≠ s.cfg.maxTries) :
    exec .sendJam s = .next (goTo .backoffDraw (setRetry (s.mac.retryCnt + 1) (txByte s.cfg.jamByte s))) :=
  (if_pos hready).trans (if_neg hmore)

theorem exec_sendJam_abort {s : State} (hready : s.pins.txReady = true) (hlast : s.mac.retryCnt = s.cfg.maxTries) :
    exec .sendJam s = .next (raiseTriesExpired s.mac.txIdx (txByte s.cfg.jamByte s)) :=
  (if_pos hready).trans (if_pos hlast)

theorem exec_sendEsc_wait {s : State} (hready : s.pins.txReady = false) : exec .sendEsc s = .next s :=
  if_neg (by simp [hready])

theorem exec_sendEsc_write {s : State} (hready : s.pins.txReady = true) :
    exec .sendEsc s = .next (driveEvent .done 0 (goTo .idle (reportDone (txByte s.cfg.escByte s)))) :=
  if_pos hready

/-- Settles O25: the rule asks for nothing but `tx_ready`. -/
theorem sendEscEndsTheMessage : Obligations.SendEscEndsTheMessage := by
  intro s
  refine ⟨exec_sendEsc_wait, fun hready => ?_⟩
  have hexec := exec_sendEsc_write hready
  exact ⟨_, hexec, rfl, rfl, rfl, rfl, (exec_instr_frame (m := .sendEsc) hexec).1,
    exec_instr_sameBuffer (m := .sendEsc) hexec⟩

/-- Settles O26: no case of the two rules asks for the channel, and none samples it. -/
theorem controlBytesIgnoreTheChannel : Obligations.ControlBytesIgnoreTheChannel := by
  intro s busy i hi
  cases hready : s.pins.txReady
  case false =>
    rcases hi with rfl | rfl
    · exact ⟨_, _, exec_sendJam_wait hready, exec_sendJam_wait hready, rfl, rfl, rfl, rfl, nofun, rfl⟩
    · exact ⟨_, _, exec_sendEsc_wait hready, exec_sendEsc_wait hready, rfl, rfl, rfl, rfl, nofun, rfl⟩
  case true =>
    rcases hi with rfl | rfl
    · by_cases hlast : s.mac.retryCnt = s.cfg.maxTries
      · exact ⟨_, _, exec_sendJam_abort hready hlast, exec_sendJam_abort hready hlast, rfl, rfl, rfl, rfl, fun _ => rfl,
          rfl⟩
      · exact ⟨_, _, exec_sendJam_count hready hlast, exec_sendJam_count hready hlast, rfl, rfl, rfl, rfl, fun _ => rfl,
          rfl⟩
    · exact ⟨_, _, exec_sendEsc_write hready, exec_sendEsc_write hready, rfl, rfl, rfl, rfl, fun _ => rfl, rfl⟩

/-- Settles O54: 40_mac R123 rounds by adding 2 before the division by 4. -/
theorem slotTimeRoundsTiesUp : Obligations.SlotTimeRoundsTiesUp := by
  rintro c S rfl
  unfold Config.slotTime
  omega

end Sys2Proof.Machine
end

section
/-! PROOFS. The steps of a send (40_mac R125 to R137): the edges, the bytes written, the draws, the rank and the waits. -/

namespace Sys2Proof.Machine

/-! The edges (40_mac R137). -/

theorem edgeTarget_congr {u v : State} (hcfg : v.cfg = u.cfg) (hmac : v.mac = u.mac) (hpins : v.pins = u.pins) :
    edgeTarget v = edgeTarget u := by
  simp only [edgeTarget, hcfg, hmac, hpins]

/-- During a send the sequencer's rule takes the edge of the table. -/
theorem exec_sequencer_edge {u v : State} (h : Inv u) (hbusy : u.mac.state ≠ .idle)
    (he : exec u.mac.state.instr u = .next v) : v.mac.state = edgeTarget u := by
  cases hs : u.mac.state <;> rw [hs] at he <;> simp only [edgeTarget, hs]
  case idle => exact absurd hs hbusy
  case waitFree =>
    rcases exec_waitFree_next he with ⟨ht, rfl⟩ | ⟨-, hnot, rfl⟩ | ⟨ht, hfree, hready, -, rfl⟩
    · simp [ht, hs]
    · simp [hnot, hs]
    · simp [ht, hfree, hready]
  case transmitted => rcases exec_transmitted_next he with ⟨ht, rfl⟩ | ⟨ht, rfl⟩ <;> simp [ht, hs]
  case checkCollision => rcases exec_checkCollision_next he with ⟨hc, rfl⟩ | ⟨hc, rfl⟩ <;> simp [hc]
  case success => rw [exec_success_next he]; rfl
  case sendJam =>
    rcases exec_sendJam_next he with ⟨hready, rfl⟩ | ⟨hready, hmore, rfl⟩ | ⟨hready, hlast, rfl⟩
    · simp [hready, hs]
    · simp [hready, hmore]
    · simp [hready, hlast]
  case backoffDraw =>
    rw [← drawCandidate_eq h.retryBounded, ← drawExponent_eq h.retryBounded]
    rcases exec_backoffDraw_next he with ⟨hbeyond, rfl⟩ | ⟨hrange, rfl⟩
    · rw [if_neg (Nat.not_le.mpr hbeyond), hs]
    · rw [if_pos hrange]; rfl
  case backoff => rcases exec_backoff_next he with ⟨ht, rfl⟩ | ⟨ht, rfl⟩ <;> simp [ht, hs]
  case sendEsc => rcases exec_sendEsc_next he with ⟨hready, rfl⟩ | ⟨hready, rfl⟩ <;> simp [hready, hs]

/-- From IDLE an accepted SUBMIT alone leads away. -/
theorem beforeSequencer_edge {s : State} (hidle : s.mac.state = .idle) :
    (beforeSequencer s).mac.state = edgeTarget s := by
  rw [beforeSequencer_mac, submittedState_mac]
  by_cases hsubmit : s.pins.submit = true ∧ s.cfg.mode = .sender <;> simp [edgeTarget, hidle, hsubmit]

/-- Settles O35: a reset leads to IDLE; otherwise the port operations take the edges of IDLE, and the sequencer's rule all
the others. -/
theorem sequencerMovesOnlyByTheEdgeTable : Obligations.SequencerMovesOnlyByTheEdgeTable := by
  intro s t h hstep
  cases hr : s.pins.rst with
  | true => rw [step_reset hstep hr]; rfl
  | false =>
    obtain ⟨v, hv, rfl⟩ := step_no_reset hstep hr
    rw [if_neg Bool.false_ne_true, endCycle_mac]
    rcases exec_instr_beforeSequencer s with ⟨hidle, hstay⟩ | ⟨hbusy, hmac⟩
    · rw [hstay] at hv
      cases hv
      exact beforeSequencer_edge hidle
    · rw [← edgeTarget_congr (beforeSequencer_cfg s) hmac (beforeSequencer_pins s)]
      rw [← hmac] at hbusy hv
      exact exec_sequencer_edge (inv_beforeSequencer h) hbusy hv

/-! The bytes written (40_mac R125, R129, R130). -/

/-- The rule of `m` writes `b` from its source: the symbol on a free sample, the Jam, or the Escape. -/
def WritesFromItsSource (m : MacState) (u v : State) (b : Byte) : Prop :=
  (m = .waitFree ∧ u.mac.timer = 0 ∧ u.pins.chanBusy = false ∧ memRead u u.mac.txIdx = .ok b
      ∧ v.tr.samples = u.tr.samples ++ [(.pre, false)])
  ∨ (m = .sendJam ∧ b = u.cfg.jamByte ∧ v.tr.samples = u.tr.samples)
  ∨ (m = .sendEsc ∧ b = u.cfg.escByte ∧ v.tr.samples = u.tr.samples)

/-- A rule writes no byte, or one from its source, with the transport ready. -/
theorem exec_instr_tx {m : MacState} {u v : State} (h : exec m.instr u = .next v) :
    (v.out.tx = u.out.tx ∧ v.tr.tx = u.tr.tx)
    ∨ ∃ b, v.out.tx = some b ∧ v.tr.tx = u.tr.tx ++ [b] ∧ u.pins.txReady = true ∧ WritesFromItsSource m u v b := by
  cases m
  case idle => cases h; exact .inl ⟨rfl, rfl⟩
  case waitFree =>
    rcases exec_waitFree_next h with ⟨-, rfl⟩ | ⟨-, -, rfl⟩ | ⟨ht, hfree, hready, hidx, rfl⟩
    · exact .inl (by simp)
    · exact .inl ⟨rfl, rfl⟩
    · exact .inr ⟨_, rfl, rfl, hready, .inl ⟨rfl, ht, hfree, memRead_inside hidx, by simp [hfree]⟩⟩
  case transmitted => rcases exec_transmitted_next h with ⟨-, rfl⟩ | ⟨-, rfl⟩ <;> exact .inl (by simp)
  case checkCollision => rcases exec_checkCollision_next h with ⟨-, rfl⟩ | ⟨-, rfl⟩ <;> exact .inl ⟨rfl, rfl⟩
  case success => rw [exec_success_next h]; exact .inl ⟨rfl, rfl⟩
  case sendJam =>
    rcases exec_sendJam_next h with ⟨-, rfl⟩ | ⟨hready, -, rfl⟩ | ⟨hready, -, rfl⟩
    · exact .inl ⟨rfl, rfl⟩
    · exact .inr ⟨_, rfl, rfl, hready, .inr (.inl ⟨rfl, rfl, rfl⟩)⟩
    · exact .inr ⟨_, rfl, rfl, hready, .inr (.inl ⟨rfl, rfl, rfl⟩)⟩
  case backoffDraw => rcases exec_backoffDraw_next h with ⟨-, rfl⟩ | ⟨-, rfl⟩ <;> exact .inl ⟨rfl, rfl⟩
  case backoff => rcases exec_backoff_next h with ⟨-, rfl⟩ | ⟨-, rfl⟩ <;> exact .inl (by simp)
  case sendEsc =>
    rcases exec_sendEsc_next h with ⟨-, rfl⟩ | ⟨hready, rfl⟩
    · exact .inl ⟨rfl, rfl⟩
    · exact .inr ⟨_, rfl, rfl, hready, .inr (.inr ⟨rfl, rfl, rfl⟩)⟩

/-- A source read before the sequencer's rule is the source at the start of the step: only IDLE, which writes nothing, lets
the port operations touch the MAC. -/
theorem WritesFromItsSource.of_beforeSequencer {s v : State} {b : Byte}
    (h : WritesFromItsSource s.mac.state (beforeSequencer s) v b) : WritesFromItsSource s.mac.state s v b := by
  have hbusy : s.mac.state ≠ .idle := by
    rcases h with ⟨hs, -⟩ | ⟨hs, -⟩ | ⟨hs, -⟩ <;> simp [hs]
  obtain ⟨-, -, -, -, -, hsamples, -⟩ := beforeSequencer_macOutputs s
  have hmac := beforeSequencer_mac_busy hbusy
  have hread := memRead_congr (beforeSequencer_cfg s) (congrArg Mac.txbuf hmac) (beforeSequencer_seed s)
  simpa only [WritesFromItsSource, hmac, hread, hsamples, beforeSequencer_pins, beforeSequencer_cfg] using h

/-- A step writes no byte, or one from its source, with the transport ready and no reset. -/
theorem step_tx {s t : State} (h : step s = .next t) :
    (t.out.tx = none ∧ t.tr.tx = s.tr.tx)
    ∨ ∃ b, t.out.tx = some b ∧ t.tr.tx = s.tr.tx ++ [b] ∧ s.pins.txReady = true ∧ s.pins.rst = false
        ∧ WritesFromItsSource s.mac.state s t b := by
  cases hr : s.pins.rst with
  | true => rw [step_reset h hr]; exact .inl ⟨rfl, rfl⟩
  | false =>
    obtain ⟨v, hv, rfl⟩ := step_no_reset h hr
    obtain ⟨hnone, -, -, -, htrace, -⟩ := beforeSequencer_macOutputs s
    rcases exec_instr_tx hv with ⟨hout, htr⟩ | ⟨b, hout, htr, hready, hsource⟩
    · exact .inl ⟨hout.trans hnone, htr.trans htrace⟩
    · rw [htrace] at htr
      rw [beforeSequencer_pins] at hready
      exact .inr ⟨b, hout, htr, hready, rfl, hsource.of_beforeSequencer⟩

/-- Settles O36: the two cases of `step_tx`. -/
theorem oneTransportByteAndOnlyWhenReady : Obligations.OneTransportByteAndOnlyWhenReady := by
  intro s t hstep
  rcases step_tx hstep with ⟨hout, htr⟩ | ⟨b, hout, htr, hready, hr, -⟩
  · simp [hout, htr]
  · simp [hout, htr, hready, hr]

/-- Settles O37: the byte of `step_tx` has its source. -/
theorem everyByteWrittenHasItsSource : Obligations.EveryByteWrittenHasItsSource := by
  intro s t b hstep htx
  rcases step_tx hstep with ⟨hout, -⟩ | ⟨c, hout, -, -, -, hsource⟩
  · simp [hout] at htx
  · obtain rfl : c = b := Option.some.inj (hout.symm.trans htx)
    exact hsource

/-! The draws (40_mac R118, R119). -/

/-- Only BACKOFF_DRAW records a draw, and only one in its range. -/
theorem exec_instr_draws {m : MacState} {u v : State} (h : exec m.instr u = .next v) :
    v.tr.draws = u.tr.draws
    ∨ (m = .backoffDraw ∧ drawCandidate u ≤ 2 ^ drawExponent u
        ∧ v.tr.draws = u.tr.draws ++ [(drawExponent u, drawCandidate u)]) := by
  cases m
  case idle => cases h; exact .inl rfl
  case waitFree => rcases exec_waitFree_next h with ⟨-, rfl⟩ | ⟨-, -, rfl⟩ | ⟨-, -, -, -, rfl⟩ <;> exact .inl (by simp)
  case transmitted => rcases exec_transmitted_next h with ⟨-, rfl⟩ | ⟨-, rfl⟩ <;> exact .inl (by simp)
  case checkCollision => rcases exec_checkCollision_next h with ⟨-, rfl⟩ | ⟨-, rfl⟩ <;> exact .inl rfl
  case success => rw [exec_success_next h]; exact .inl rfl
  case sendJam => rcases exec_sendJam_next h with ⟨-, rfl⟩ | ⟨-, -, rfl⟩ | ⟨-, -, rfl⟩ <;> exact .inl rfl
  case backoffDraw =>
    rcases exec_backoffDraw_next h with ⟨-, rfl⟩ | ⟨hrange, rfl⟩
    · exact .inl rfl
    · exact .inr ⟨rfl, hrange, rfl⟩
  case backoff => rcases exec_backoff_next h with ⟨-, rfl⟩ | ⟨-, rfl⟩ <;> exact .inl (by simp)
  case sendEsc => rcases exec_sendEsc_next h with ⟨-, rfl⟩ | ⟨-, rfl⟩ <;> exact .inl rfl

/-- Settles O46: the one draw a step may add is in its range, and its exponent is the count of collisions. -/
theorem everyDrawIsInItsRange : Obligations.EveryDrawIsInItsRange := by
  intro s t h hstep hold
  rw [parametersNeverChange s t hstep]
  cases hr : s.pins.rst with
  | true => rw [step_reset hstep hr]; exact hold
  | false =>
    obtain ⟨v, hv, rfl⟩ := step_no_reset hstep hr
    obtain ⟨-, -, -, -, -, -, hdraws, -⟩ := beforeSequencer_macOutputs s
    rw [endCycle_tr]
    rcases exec_instr_draws hv with hsame | ⟨hs, hrange, hadded⟩
    · rwa [hsame, hdraws]
    · have hmac := beforeSequencer_mac_busy (s := s) (by rw [hs]; nofun)
      have hk : drawExponent (beforeSequencer s) = s.mac.retryCnt := by
        rw [drawExponent_eq (inv_beforeSequencer h).retryBounded, hmac]
      rw [hk] at hrange hadded
      rw [hadded, hdraws]
      intro p hp
      rcases List.mem_append.mp hp with hp | hp
      · exact hold p hp
      · obtain rfl := List.mem_singleton.mp hp
        exact ⟨h.retryCounted hs, h.retryBounded, hrange⟩

/-! The rank (40_mac R133, R134). -/

/-- A step of the sequencer: it stays with its rank, or moves to a lower one. -/
def RankStep (u v : State) : Prop :=
  (v.mac.state = u.mac.state ∧ rank v = rank u) ∨ (v.mac.state ≠ u.mac.state ∧ rank v < rank u)

theorem rank_congr {u v : State} (hcfg : v.cfg = u.cfg) (hmac : v.mac = u.mac) : rank v = rank u := by
  simp only [rank, hcfg, hmac]

/-- The attempts that the symbols not yet done may still take, which `rank` counts. -/
def attemptsLeft (s : State) : Nat := (s.mac.txLen - s.mac.txIdx) * (s.cfg.maxTries + 1) - s.mac.retryCnt

theorem rank_waitFree {s : State} (hs : s.mac.state = .waitFree) : rank s = attemptsLeft s * 8 + 7 := by
  simp [rank, attemptsLeft, hs]

theorem rank_success {s : State} (hs : s.mac.state = .success) : rank s = attemptsLeft s * 8 + 4 := by
  simp [rank, attemptsLeft, hs]

theorem rank_sendJam {s : State} (hs : s.mac.state = .sendJam) : rank s = attemptsLeft s * 8 + 4 := by
  simp [rank, attemptsLeft, hs]

theorem rank_backoffDraw {s : State} (hs : s.mac.state = .backoffDraw) : rank s = attemptsLeft s * 8 + 9 := by
  simp [rank, attemptsLeft, hs]

/-- A counted collision takes one attempt of those left. -/
theorem attemptsLeft_setRetry_succ {u : State} (h : Inv u) (hs : u.mac.state.sending = true) :
    attemptsLeft (setRetry (u.mac.retryCnt + 1) u) < attemptsLeft u := by
  have hpos : 0 < u.mac.txLen - u.mac.txIdx := Nat.sub_pos_of_lt (h.indexInside hs)
  have hleft : u.mac.retryCnt < (u.mac.txLen - u.mac.txIdx) * (u.cfg.maxTries + 1) :=
    lt_of_lt_of_le (Nat.lt_succ_of_le h.retryBounded) (Nat.le_mul_of_pos_left _ hpos)
  simp only [attemptsLeft, setRetry_mac, setRetry_cfg]
  omega

/-- A symbol that is done gives up the attempts it did not take, of which there was at least one. -/
theorem attemptsLeft_next_symbol {u : State} (h : Inv u) (hs : u.mac.state.sending = true) :
    attemptsLeft (setIndex (u.mac.txIdx + 1) (setRetry 0 u)) < attemptsLeft u := by
  have hinside := h.indexInside hs
  have hretry := h.retryBounded
  have hsymbols : u.mac.txLen - u.mac.txIdx = u.mac.txLen - (u.mac.txIdx + 1) + 1 := by omega
  simp only [attemptsLeft, setIndex_mac, setIndex_cfg, setRetry_mac, setRetry_cfg, hsymbols, Nat.succ_mul]
  omega

theorem rankStep_success {u v : State} (h : Inv u) (hs : u.mac.state = .success) (he : exec .success u = .next v) :
    RankStep u v := by
  have hfalls : attemptsLeft v < attemptsLeft u := by
    rw [exec_success_next he]
    exact attemptsLeft_next_symbol h (by rw [hs]; rfl)
  by_cases hlast : u.mac.txIdx + 1 = u.mac.txLen
  · have hvs : v.mac.state = .sendEsc := by rw [exec_success_next he]; exact if_pos hlast
    exact .inr ⟨by simp [hs, hvs], by simp [rank, hs, hvs]⟩
  · have hvs : v.mac.state = .waitFree := by rw [exec_success_next he]; exact if_neg hlast
    exact .inr ⟨by simp [hs, hvs], by rw [rank_success hs, rank_waitFree hvs]; omega⟩

/-- SEND_JAM uses up one attempt, or ends the send. -/
theorem rankStep_sendJam {u v : State} (h : Inv u) (hs : u.mac.state = .sendJam) (he : exec .sendJam u = .next v) :
    RankStep u v := by
  rcases exec_sendJam_next he with ⟨-, rfl⟩ | ⟨-, -, hv⟩ | ⟨-, -, rfl⟩
  · exact .inl ⟨rfl, rfl⟩
  · have hvs : v.mac.state = .backoffDraw := by rw [hv]; rfl
    have hfalls : attemptsLeft v < attemptsLeft u := by
      rw [hv]
      exact attemptsLeft_setRetry_succ h (by rw [hs]; rfl)
    exact .inr ⟨by simp [hs, hvs], by rw [rank_sendJam hs, rank_backoffDraw hvs]; omega⟩
  · exact .inr ⟨by simp [hs], by simp [rank, hs]⟩

theorem rankStep_exec_sequencer {u v : State} (h : Inv u) (hbusy : u.mac.state ≠ .idle)
    (he : exec u.mac.state.instr u = .next v) : RankStep u v := by
  cases hs : u.mac.state <;> rw [hs] at he
  case idle => exact absurd hs hbusy
  case waitFree =>
    rcases exec_waitFree_next he with ⟨-, rfl⟩ | ⟨-, -, rfl⟩ | ⟨-, -, -, -, rfl⟩
    · exact .inl (by simp [rank])
    · exact .inl (by simp [rank])
    · exact .inr (by simp [rank, hs])
  case transmitted =>
    rcases exec_transmitted_next he with ⟨-, rfl⟩ | ⟨-, rfl⟩
    · exact .inl (by simp [rank])
    · exact .inr (by simp [rank, hs])
  case checkCollision =>
    rcases exec_checkCollision_next he with ⟨-, rfl⟩ | ⟨-, rfl⟩ <;> exact .inr (by simp [rank, hs])
  case success => exact rankStep_success h hs he
  case sendJam => exact rankStep_sendJam h hs he
  case backoffDraw =>
    rcases exec_backoffDraw_next he with ⟨-, rfl⟩ | ⟨-, rfl⟩
    · exact .inl ⟨rfl, rfl⟩
    · exact .inr (by simp [rank, hs])
  case backoff =>
    rcases exec_backoff_next he with ⟨-, rfl⟩ | ⟨-, rfl⟩
    · exact .inl (by simp [rank])
    · exact .inr (by simp [rank, hs])
  case sendEsc =>
    rcases exec_sendEsc_next he with ⟨-, rfl⟩ | ⟨-, rfl⟩
    · exact .inl ⟨rfl, rfl⟩
    · exact .inr (by simp [rank, hs])

/-- Settles O49: outside IDLE the port operations leave the rank alone, and the sequencer's rule stays or falls. -/
theorem sendRankFallsAtEveryMove : Obligations.SendRankFallsAtEveryMove := by
  intro s t h hbusy hr hstep
  obtain ⟨v, hv, rfl⟩ := step_no_reset hstep hr
  have hmac := beforeSequencer_mac_busy hbusy
  have hrank := rank_congr (beforeSequencer_cfg s) hmac
  have hmove : RankStep (beforeSequencer s) v :=
    rankStep_exec_sequencer (inv_beforeSequencer h) (by rwa [hmac]) (by rwa [hmac])
  rw [RankStep, hrank, hmac] at hmove
  rcases hmove with ⟨hstay, heq⟩ | ⟨hgo, hlt⟩
  · exact ⟨fun hne => absurd hstay hne, fun _ => heq⟩
  · exact ⟨fun _ => hlt, fun hstay => absurd hstay hgo⟩

/-! Several steps. -/

/-- A step without reset goes on where the rule of its state does. -/
theorem step_of_exec {s v : State} {m : MacState} (hlegal : s.cfg.legal = true) (hr : s.pins.rst = false)
    (hs : s.mac.state = m) (he : exec m.instr (beforeSequencer s) = .next v) : step s = .next (endCycle v) := by
  rw [step, if_pos hlegal, runCycle_no_reset hr, hs, he, andThen_next]

theorem run_succ {M : Host.Core} {s t : M.State} (n : Nat) (h : M.step s = .next t) : M.run (n + 1) s = M.run n t := by
  rw [Host.Core.run, h]

theorem nextPins_scheduled {s : State} {p : Pins} {ps : List Pins} (h : s.stim = p :: ps) : nextPins s = p := by
  rw [nextPins, h]

/-! The timed waits (40_mac R128). -/

/-- Where a timed wait of the send leads. -/
def waitTarget (m : MacState) : MacState := if m = .transmitted then .checkCollision else .waitFree

theorem exec_timed_wait {m : MacState} {u : State} (hm : m = .transmitted ∨ m = .backoff) (ht : u.mac.timer ≠ 0) :
    exec m.instr u = .next (countTick u) := by
  rcases hm with rfl | rfl
  · exact exec_transmitted_wait ht
  · exact exec_backoff_wait ht

theorem exec_timed_end {m : MacState} {u : State} (hm : m = .transmitted ∨ m = .backoff) (ht : u.mac.timer = 0) :
    exec m.instr u = .next (goTo (waitTarget m) u) := by
  rcases hm with rfl | rfl
  · exact exec_transmitted_end ht
  · exact exec_backoff_end ht

/-- One step of a timed wait: the tick is counted, or the wait is over. -/
theorem step_timed {s : State} (hlegal : s.cfg.legal = true) (hm : s.mac.state = .transmitted ∨ s.mac.state = .backoff)
    (htick : s.pins.tick = true) (hr : s.pins.rst = false) :
    ∃ t, step s = .next t ∧ t.cfg = s.cfg ∧ t.pins = nextPins s ∧ t.stim = s.stim.tail
      ∧ t.tr.tx = s.tr.tx ∧ t.tr.samples = s.tr.samples
      ∧ (s.mac.timer ≠ 0 → t.mac = { s.mac with timer := s.mac.timer - 1 })
      ∧ (s.mac.timer = 0 → t.mac = { s.mac with state := waitTarget s.mac.state }) := by
  have hmac : (beforeSequencer s).mac = s.mac := beforeSequencer_mac_busy (by rcases hm with hs | hs <;> simp [hs])
  obtain ⟨-, -, -, -, htx, hsamples, -⟩ := beforeSequencer_macOutputs s
  by_cases ht : s.mac.timer = 0
  · exact ⟨_, step_of_exec hlegal hr rfl (exec_timed_end hm (by rw [hmac, ht])), by simp, by simp [nextPins], by simp, htx,
      hsamples, fun hne => absurd ht hne, fun _ => by simp [hmac]⟩
  · exact ⟨_, step_of_exec hlegal hr rfl (exec_timed_wait hm (by rwa [hmac])), by simp, by simp [nextPins], by simp,
      by simp [htx], by simp [hsamples], fun _ => by simp [hmac, htick], fun h0 => absurd h0 ht⟩

/-- A wait of `n` ticks is `n` counting steps and the step that moves on. -/
theorem run_timed_wait (n : Nat) {s : State} (hlegal : s.cfg.legal = true)
    (hm : s.mac.state = .transmitted ∨ s.mac.state = .backoff) (htick : s.pins.tick = true) (hr : s.pins.rst = false)
    (hstim : ∀ p ∈ s.stim, p.tick = true ∧ p.rst = false) (hlen : n ≤ s.stim.length) (htimer : s.mac.timer = n) :
    ∃ t, Sys2Proof.core.run (n + 1) s = .next t
      ∧ t.mac = { s.mac with timer := 0, state := waitTarget s.mac.state }
      ∧ t.tr.tx = s.tr.tx ∧ t.tr.samples = s.tr.samples := by
  induction n generalizing s with
  | zero =>
    obtain ⟨t, hstep, -, -, -, htx, hsamples, -, hend⟩ := step_timed hlegal hm htick hr
    refine ⟨t, run_succ 0 hstep, ?_, htx, hsamples⟩
    rw [hend htimer, ← htimer]
  | succ n ih =>
    obtain ⟨u, hstep, hcfg, hpins, htail, htx, hsamples, hwait, -⟩ := step_timed hlegal hm htick hr
    have hmac : u.mac = { s.mac with timer := n } := by rw [hwait (by omega), htimer, Nat.add_sub_cancel]
    obtain ⟨p, ps, hps⟩ := List.exists_cons_of_length_pos (Nat.zero_lt_of_lt hlen)
    rw [hps] at hstim hlen
    obtain ⟨hptick, hpr⟩ := hstim p List.mem_cons_self
    have hpins : u.pins = p := hpins.trans (nextPins_scheduled hps)
    have htail : u.stim = ps := by rw [htail, hps, List.tail_cons]
    obtain ⟨t, hrun, hmac', htx', hsamples'⟩ := ih (s := u) (by rwa [hcfg]) (by rwa [hmac]) (by rwa [hpins])
      (by rwa [hpins]) (by rw [htail]; exact fun q hq => hstim q (List.mem_cons_of_mem p hq))
      (by rw [htail]; exact Nat.le_of_succ_le_succ hlen) (by rw [hmac])
    exact ⟨t, (run_succ (n + 1) hstep).trans hrun, by rw [hmac', hmac], htx'.trans htx, hsamples'.trans hsamples⟩

/-- Settles O50: the wait of `timer` ticks. -/
theorem timedWaitEndsAfterItsTicks : Obligations.TimedWaitEndsAfterItsTicks :=
  fun _ hlegal hm htick hr hstim hlen => run_timed_wait _ hlegal hm htick hr hstim hlen rfl

/-! The empty message (40_mac R127). -/

/-- A step of SEND_ESC with the transport ready. -/
theorem step_sendEsc {s : State} (hlegal : s.cfg.legal = true) (hr : s.pins.rst = false) (hs : s.mac.state = .sendEsc)
    (hready : s.pins.txReady = true) :
    ∃ t, step s = .next t ∧ t.mac = { s.mac with stDone := true, state := .idle }
      ∧ t.tr.tx = s.tr.tx ++ [s.cfg.escByte] ∧ t.tr.samples = s.tr.samples := by
  have hmac : (beforeSequencer s).mac = s.mac := beforeSequencer_mac_busy (by rw [hs]; nofun)
  obtain ⟨-, -, -, -, htx, hsamples, -⟩ := beforeSequencer_macOutputs s
  have hexec := exec_sendEsc_write (s := beforeSequencer s) (by rwa [beforeSequencer_pins])
  exact ⟨_, step_of_exec hlegal hr hs hexec, by simp [hmac], by simp [htx], hsamples⟩

/-- Settles O51: the accepted SUBMIT 0 leads to SEND_ESC with both reports clear, and the next step is that rule. -/
theorem emptyMessageIsOneEscape : Obligations.EmptyMessageIsOneEscape := by
  intro s p ps h hidle hmode hr hsubmit hlen hstim hpr hpready
  have hfirst := step_idle h.legal hr hidle
  obtain ⟨-, -, -, -, htx, hsamples, -⟩ := beforeSequencer_macOutputs s
  have hmac := beforeSequencer_mac_submit hidle hmode hsubmit
  rw [hlen, Nat.zero_mod] at hmac
  have hpins : (endCycle (beforeSequencer s)).pins = p := nextPins_scheduled (by rw [beforeSequencer_stim, hstim])
  obtain ⟨t, hsecond, hmac', htx', hsamples'⟩ := step_sendEsc (s := endCycle (beforeSequencer s)) (by simp [h.legal])
    (by rw [hpins, hpr]) (by simp [hmac]) (by rw [hpins, hpready])
  refine ⟨t, (run_succ 1 hfirst).trans (run_succ 0 hsecond), ?_, hsamples'.trans hsamples, ?_⟩
  · rw [htx', endCycle_tr, htx, endCycle_cfg, beforeSequencer_cfg]
  · simp [hmac', hmac]

end Sys2Proof.Machine
end

section
/-! PROOFS. The decoder (41_decoder R160 to R171): the rule of each byte class, bursts, and the decoding of a send. -/

namespace Sys2Proof.Machine

/-! The rules of the byte classes. -/

/-- Flushing emits the held byte, if there is one, and leaves all but the decoder alone (R162, R163). -/
theorem flushPending_spec (s : State) :
    (∀ c, s.lookahead = some c →
      (flushPending s).out = { s.out with dec := some c }
      ∧ (flushPending s).tr = { s.tr with decOut := s.tr.decOut ++ [c], batch := s.tr.batch ++ [c] })
    ∧ (s.lookahead = none → (flushPending s).out = s.out ∧ (flushPending s).tr = s.tr)
    ∧ SameMac s (flushPending s) ∧ SameEnvironment s (flushPending s) ∧ SameBuffer s (flushPending s) := by
  refine ⟨fun c hc => by simp [hc], fun hnone => by simp [hnone], by simp [SameMac], by simp [SameEnvironment], ?_⟩
  exact memRead_congr (by simp) (by simp) (by simp)

/-- Settles O5: JAM only clears the lookahead. -/
theorem jamDiscardsTheHeldByte : Obligations.JamDiscardsTheHeldByte := fun s =>
  ⟨clearLookahead s, rfl, rfl, rfl, rfl, rfl, ⟨rfl, rfl, rfl, rfl, rfl⟩, memRead_congr rfl rfl rfl⟩

/-- Settles O6: ESC flushes, and then only clears the lookahead. -/
theorem escapeFlushesTheHeldByteOnce : Obligations.EscapeFlushesTheHeldByteOnce := fun s =>
  ⟨clearLookahead (flushPending s), rfl, rfl, flushPending_spec s⟩

/-- Settles O7: DATA flushes, and then only holds its byte. -/
theorem dataByteFlushesTheOldAndIsHeld : Obligations.DataByteFlushesTheOldAndIsHeld := fun s b =>
  ⟨holdByte b (flushPending s), rfl, rfl, flushPending_spec s⟩

/-! RX_BYTE (R160, R164, R165). -/

/-- Whatever the class of a byte, its rule goes on, and leaves the registers, the environment and the buffer alone. -/
theorem exec_classify_frame (b : Byte) (s : State) :
    ∃ u, exec (classify s.cfg b) s = .next u ∧ u.mac = s.mac ∧ SameEnvironment s u ∧ SameBuffer s u := by
  unfold classify
  split
  · obtain ⟨u, hu, -, hmac, -, -, henv, hbuffer⟩ := jamDiscardsTheHeldByte s
    exact ⟨u, hu, hmac, henv, hbuffer⟩
  · split
    · obtain ⟨u, hu, -, -, -, ⟨hmac, -⟩, henv, hbuffer⟩ := escapeFlushesTheHeldByteOnce s
      exact ⟨u, hu, hmac, henv, hbuffer⟩
    · obtain ⟨u, hu, -, -, -, ⟨hmac, -⟩, henv, hbuffer⟩ := dataByteFlushesTheOldAndIsHeld s b
      exact ⟨u, hu, hmac, henv, hbuffer⟩

/-- In RECEIVER mode a byte runs the rule of its class, then the notification of its burst. -/
theorem exec_rxByte_receiver {s : State} (b : Byte) (last : Bool) (hmode : s.cfg.mode = .receiver) :
    exec (.rxByte b last) s = andThen (exec (classify s.cfg b) s) (notifyIfLast last) :=
  (if_pos hmode).trans (by rw [receiveByte_eq_exec])

/-- Settles O8: after the rule of the class only the notification is left, which touches the decoder alone. -/
theorem receivedByteRunsItsClassAndNotifies : Obligations.ReceivedByteRunsItsClassAndNotifies := by
  intro s b last hmode
  obtain ⟨u, hu, hmac, henv, hbuffer⟩ := exec_classify_frame b s
  have hrx := exec_rxByte_receiver b last hmode
  rw [hu, andThen_next] at hrx
  refine ⟨u, _, hu, hrx, ?_⟩
  cases last with
  | false => exact ⟨rfl, fun _ => ⟨rfl, rfl⟩, nofun, hmac, henv, hbuffer⟩
  | true => exact ⟨rfl, nofun, fun _ => ⟨rfl, rfl⟩, hmac, henv, hbuffer⟩

/-- Settles O9: the mode gate of RX_BYTE is closed. -/
theorem senderIgnoresReceivedBytes : Obligations.SenderIgnoresReceivedBytes := fun _ _ _ hmode =>
  if_neg (by rw [hmode]; nofun)

/-! Many bytes (R167): by induction, each step being `decodeByte` whatever the burst mark. -/

/-- Settles O10, by induction on the bytes from any lookahead. -/
theorem decoderIsTheFoldOverTheBytes : Obligations.DecoderIsTheFoldOverTheBytes := by
  intro bytes
  induction bytes with
  | nil => exact fun s _ => ⟨s, rfl, rfl, (List.append_nil _).symm, rfl, ⟨rfl, rfl, rfl, rfl, rfl⟩⟩
  | cons p bytes ih =>
    intro s hmode
    obtain ⟨b, last⟩ := p
    have hfirst : exec (.rxByte b last) s = .next (receivedState b last s) := by rw [exec_rxByte, if_pos hmode]
    obtain ⟨hheld, -, -, hout⟩ := receivedState_decoder b last s
    obtain ⟨t, hrun, hheld', hout', hmac, henv⟩ := ih (receivedState b last s) (by rwa [receivedState_cfg])
    rw [hheld, receivedState_cfg] at hheld' hout'
    refine ⟨t, ?_, hheld', ?_, by rw [hmac, receivedState_mac], by simpa [SameEnvironment] using henv⟩
    · rw [List.map_cons, execAll, hfirst, andThen_next, hrun]
    · rw [hout', hout, List.append_assoc]
      rfl

/-! One step (R170). -/

/-- Every byte but a Jam emits what was held. -/
theorem decodeByte_emits (c : Config) (held : Option Byte) (b : Byte) :
    (decodeByte c held b).2 = if b ≠ c.jamByte then held.toList else [] := by
  by_cases hjam : b = c.jamByte
  · simp [decodeByte, hjam]
  · rw [decodeByte, if_neg hjam, if_pos hjam]
    split <;> rfl

/-- Settles O38: the decoder's part of a step is the receive group's, which applies `decodeByte` to the byte it hears. -/
theorem decoderOutputsOfAStep : Obligations.DecoderOutputsOfAStep := by
  intro s t hstep
  cases hr : s.pins.rst with
  | true => rw [step_reset hstep hr]; simp [Outputs.quiet]
  | false =>
    obtain ⟨-, hdec, hnotify, hout, -⟩ := step_sameDecoder hstep hr
    rw [hdec, hnotify, hout]
    by_cases hh : hears s
    · obtain ⟨-, hdec, hnotify, hout⟩ := beforeSequencer_hears hh
      rw [hdec, hnotify, hout, decodeByte_emits]
      obtain ⟨hvalid, hmode⟩ := hh
      by_cases hjam : s.pins.rxData = s.cfg.jamByte
      · simp [hvalid, hmode, hjam]
      · cases s.lookahead <;> simp [hvalid, hmode, hjam]
    · obtain ⟨-, hdec, hnotify, hout⟩ := beforeSequencer_deaf hh
      rw [hdec, hnotify, hout]
      have hnot : ∀ q : Prop, ¬ (s.pins.rxValid = true ∧ s.cfg.mode = .receiver ∧ q) :=
        fun _ ⟨hvalid, hmode, _⟩ => hh ⟨hvalid, hmode⟩
      simp [hnot]

/-! A send on the wire (R171): a Jam takes back the attempt before it, and the next symbol or the Escape confirms it. -/

theorem decodeByte_jam (c : Config) (held : Option Byte) : decodeByte c held c.jamByte = (none, []) := if_pos rfl

theorem decodeByte_esc {c : Config} (hctl : c.jamByte ≠ c.escByte) (held : Option Byte) :
    decodeByte c held c.escByte = (none, held.toList) := by
  simp [decodeByte, hctl.symm]

theorem decodeByte_data {c : Config} {b : Byte} (hb : b ≠ c.jamByte ∧ b ≠ c.escByte) (held : Option Byte) :
    decodeByte c held b = (some b, held.toList) := by
  simp [decodeByte, hb]

theorem decodeStream_snoc (c : Config) (held : Option Byte) (bs : List Byte) (b : Byte) :
    decodeStream c held (bs ++ [b]) =
      ((decodeByte c (decodeStream c held bs).1 b).1,
        (decodeStream c held bs).2 ++ (decodeByte c (decodeStream c held bs).1 b).2) := by
  simp [decodeStream_append, decodeStream]

/-- A symbol that gets through is held, however many attempts at it met a collision. -/
theorem decodeStream_symbol {c : Config} {b : Byte} (hb : b ≠ c.jamByte ∧ b ≠ c.escByte) (held : Option Byte) (n : Nat) :
    decodeStream c held (attempts c b n ++ [b]) = (some b, held.toList) := by
  induction n with
  | zero => simp [attempts_zero, decodeStream, decodeByte_data hb]
  | succ n ih =>
    have hback : attempts c b (n + 1) ++ [b] = (attempts c b n ++ [b]) ++ [c.jamByte] ++ [b] := by
      simp [attempts_succ]
    rw [hback, decodeStream_snoc, decodeStream_snoc, ih, decodeByte_jam, decodeByte_data hb]
    simp

/-- Attempts that all met a collision leave nothing of their symbol. -/
theorem decodeStream_attempts_succ {c : Config} {b : Byte} (hb : b ≠ c.jamByte ∧ b ≠ c.escByte) (held : Option Byte)
    (n : Nat) : decodeStream c held (attempts c b (n + 1)) = (none, held.toList) := by
  have hlast : attempts c b (n + 1) = (attempts c b n ++ [b]) ++ [c.jamByte] := by simp [attempts_succ]
  rw [hlast, decodeStream_snoc, decodeStream_symbol hb, decodeByte_jam, List.append_nil]

/-- What the delivered symbols emit, with the one still held, is the message so far, after what was held before. -/
theorem decodeStream_deliveredWire {c : Config} (sent : List (Byte × Nat))
    (hsent : ∀ p ∈ sent, p.1 ≠ c.jamByte ∧ p.1 ≠ c.escByte) (held : Option Byte) :
    (decodeStream c held (deliveredWire c sent)).2 ++ (decodeStream c held (deliveredWire c sent)).1.toList
      = held.toList ++ sent.map Prod.fst := by
  induction sent generalizing held with
  | nil => simp [deliveredWire, decodeStream]
  | cons p sent ih =>
    obtain ⟨hp, hrest⟩ := List.forall_mem_cons.mp hsent
    have hwire : deliveredWire c (p :: sent) = (attempts c p.1 p.2 ++ [p.1]) ++ deliveredWire c sent :=
      List.flatMap_cons
    rw [hwire, decodeStream_append, decodeStream_symbol hp, List.append_assoc, ih hrest]
    simp

/-- Settles O11: the Escape flushes the last symbol, and the Jams of an aborted symbol let it be flushed and vanish. -/
theorem sentMessageDecodesToItself : Obligations.SentMessageDecodesToItself := by
  intro c sent hctl hsent
  have hdelivered := decodeStream_deliveredWire sent hsent none
  refine ⟨?_, fun b hjam hesc => ?_⟩
  · rw [completedWire, decodeStream_snoc, decodeByte_esc hctl, hdelivered]
    rfl
  · rw [abortedWire, decodeStream_append, decodeStream_attempts_succ ⟨hjam, hesc⟩, hdelivered]
    rfl

end Sys2Proof.Machine
end

section
/-! PROOFS. The exceptions and the debug port (60_exceptions R180 to R194): SEND_JAM's retry check, where `TriesExpired`
comes from, that nothing stops a cycle, and the events. -/

namespace Sys2Proof.Machine

/-! The exception `TriesExpired` (60_exceptions R181, R187). -/

/-- Settles O20: the three cases of the rule, the last of which takes the exception. -/
theorem sendJamCountsOrAborts : Obligations.SendJamCountsOrAborts := by
  intro s
  refine ⟨exec_sendJam_wait, fun hready hmore => ?_, fun hready hlast => ?_⟩
  · have hexec := exec_sendJam_count hready hmore
    exact ⟨_, hexec, rfl, rfl, rfl, rfl, (exec_instr_frame (m := .sendJam) hexec).1,
      exec_instr_sameBuffer (m := .sendJam) hexec⟩
  · have hexec := exec_sendJam_abort hready hlast
    exact ⟨_, hexec, rfl, rfl, rfl, rfl, rfl, (exec_instr_frame (m := .sendJam) hexec).1,
      exec_instr_sameBuffer (m := .sendJam) hexec⟩

/-- A rule under which `st_err` rises is SEND_JAM's, in the case that writes the Jam of the last collision and takes the
exception. -/
theorem exec_instr_raises {m : MacState} {u v : State} (h : exec m.instr u = .next v) (hlow : u.mac.stErr = false)
    (hrise : v.mac.stErr = true) :
    m = .sendJam ∧ u.mac.retryCnt = u.cfg.maxTries ∧ v = raiseTriesExpired u.mac.txIdx (txByte u.cfg.jamByte u) := by
  rcases exec_instr_reports h with ⟨-, herr, -⟩ | ⟨-, -, herr, -⟩ | ⟨rfl, -⟩
  · simp [herr, hlow] at hrise
  · simp [herr, hlow] at hrise
  · rcases exec_sendJam_next h with ⟨-, rfl⟩ | ⟨-, -, rfl⟩ | ⟨-, hlast, hv⟩
    · simp [hlow] at hrise
    · simp [hlow] at hrise
    · exact ⟨rfl, hlast, hv⟩

/-- Settles O41: a reset and the port operations leave a low `st_err` low, so the rise is the sequencer's, and that is
SEND_JAM taking the exception on the registers the step began with. -/
theorem triesExpiredComesFromSendJamAlone : Obligations.TriesExpiredComesFromSendJamAlone := by
  intro s t hstep
  refine ⟨fun hlow hrise => ?_, rfl⟩
  cases hr : s.pins.rst with
  | true => rw [step_reset hstep hr] at hrise; cases hrise
  | false =>
    obtain ⟨v, hv, rfl⟩ := step_no_reset hstep hr
    obtain ⟨hm, hlast, rfl⟩ := exec_instr_raises hv ((beforeSequencer_reports s).2 hlow) hrise
    have hmac : (beforeSequencer s).mac = s.mac := beforeSequencer_mac_busy (by simp [hm])
    rw [hmac, beforeSequencer_cfg] at hlast
    simp [hm, hlast, hmac]

/-! No cycle stops (60_exceptions R180): the one stop a rule could meet is WAIT_FREE's fetch, and `tx_idx` is inside. -/

theorem exec_waitFree_goes_on {u : State} (hidx : u.mac.txIdx < u.cfg.depth) : ∃ v, exec .waitFree u = .next v := by
  by_cases ht : u.mac.timer = 0
  · by_cases hgo : u.pins.chanBusy = false ∧ u.pins.txReady = true
    · exact ⟨_, exec_waitFree_send ht hgo.1 hgo.2 hidx⟩
    · exact ⟨_, exec_waitFree_poll ht hgo⟩
  · exact ⟨_, exec_waitFree_wait ht⟩

theorem exec_timed_goes_on {m : MacState} (hm : m = .transmitted ∨ m = .backoff) (u : State) :
    ∃ v, exec m.instr u = .next v := by
  by_cases ht : u.mac.timer = 0
  · exact ⟨_, exec_timed_end hm ht⟩
  · exact ⟨_, exec_timed_wait hm ht⟩

theorem exec_sendJam_goes_on (u : State) : ∃ v, exec .sendJam u = .next v := by
  cases hready : u.pins.txReady with
  | false => exact ⟨_, exec_sendJam_wait hready⟩
  | true =>
    by_cases hlast : u.mac.retryCnt = u.cfg.maxTries
    · exact ⟨_, exec_sendJam_abort hready hlast⟩
    · exact ⟨_, exec_sendJam_count hready hlast⟩

/-- Under the invariant the rule of the sequencer's state goes on. -/
theorem exec_sequencer_goes_on {u : State} (h : Inv u) : ∃ v, exec u.mac.state.instr u = .next v := by
  cases hs : u.mac.state
  case idle => exact ⟨_, rfl⟩
  case waitFree => exact exec_waitFree_goes_on ((h.indexInside (by rw [hs]; rfl)).trans h.lengthFits)
  case transmitted => exact exec_timed_goes_on (.inl rfl) u
  case checkCollision =>
    cases hbusy : u.pins.chanBusy with
    | false => exact ⟨_, exec_checkCollision_free hbusy⟩
    | true => exact ⟨_, exec_checkCollision_busy hbusy⟩
  case success => exact ⟨_, rfl⟩
  case sendJam => exact exec_sendJam_goes_on u
  case backoffDraw =>
    rcases le_or_gt (u.pins.rng % 2 ^ (u.mac.retryCnt + 1)) (2 ^ u.mac.retryCnt) with haccept | hreject
    · exact ⟨_, exec_backoffDraw_accept h.retryBounded rfl haccept⟩
    · exact ⟨_, exec_backoffDraw_reject h.retryBounded hreject⟩
  case backoff => exact exec_timed_goes_on (.inr rfl) u
  case sendEsc =>
    cases hready : u.pins.txReady with
    | false => exact ⟨_, exec_sendEsc_wait hready⟩
    | true => exact ⟨_, exec_sendEsc_write hready⟩

/-- Settles O45: the configuration is legal, a reset always goes on, and the port operations keep the invariant under which
the sequencer's rule does. -/
theorem noCycleStops : Obligations.NoCycleStops := by
  intro s h
  cases hr : s.pins.rst with
  | true => exact ⟨_, (if_pos h.legal).trans (runCycle_reset hr)⟩
  | false =>
    rcases exec_instr_beforeSequencer s with ⟨hidle, -⟩ | ⟨-, hmac⟩
    · exact ⟨_, step_idle h.legal hr hidle⟩
    · obtain ⟨v, hv⟩ := exec_sequencer_goes_on (inv_beforeSequencer h)
      rw [hmac] at hv
      exact ⟨_, step_of_exec h.legal hr rfl hv⟩

/-! The debug events (60_exceptions R194). -/

/-- Settles O27: each of the six rows is `driveEvent` of its kind, which writes the debug port and its trace alone. -/
theorem eventsDriveOnlyTheDebugPort : Obligations.EventsDriveOnlyTheDebugPort := by
  intro s arg i kind code hrow
  have hevent : exec i s = .next (driveEvent kind arg s) ∧ evtCode (driveEvent kind arg s).out = code := by
    simp only [List.mem_cons, Prod.mk.injEq, List.not_mem_nil, or_false] at hrow
    rcases hrow with ⟨rfl, rfl, rfl⟩ | ⟨rfl, rfl, rfl⟩ | ⟨rfl, rfl, rfl⟩ | ⟨rfl, rfl, rfl⟩ | ⟨rfl, rfl, rfl⟩ |
      ⟨rfl, rfl, rfl⟩ <;> exact ⟨rfl, rfl⟩
  obtain ⟨hexec, hcode⟩ := hevent
  exact ⟨_, hexec, rfl, hcode, rfl, rfl, rfl, ⟨rfl, rfl, rfl, rfl, rfl⟩, memRead_congr rfl rfl rfl⟩

end Sys2Proof.Machine
end

section
/-! PROOFS. Reset and the end of a send (70_reset_and_hazards R220, R222, R239). -/

namespace Sys2Proof.Machine

/-- Under legal parameters a cycle with `rst = 1` is the reset alone, whatever strobes stand on the ports. -/
theorem step_of_rst {s : State} (hlegal : s.cfg.legal = true) (hr : s.pins.rst = true) :
    step s = .next (endCycle (applyReset (beginCycle s))) :=
  (if_pos hlegal).trans (runCycle_reset hr)

/-- Settles O30: the cycle is `applyReset`, which keeps the buffer, the parameters and the power-up that a read looks at. -/
theorem resetOverridesTheCycle : Obligations.ResetOverridesTheCycle := by
  intro s hlegal hr
  have hbuffer : SameBuffer s (endCycle (applyReset (beginCycle s))) := memRead_congr rfl rfl rfl
  refine ⟨_, step_of_rst hlegal hr, ?_⟩
  simp [Mac.afterReset, Outputs.quiet, hbuffer]

/-- Settles O42: during a send the port operations leave the MAC alone, so the rule of the sequencer's state ends the send,
with one report; a reset clears both. -/
theorem sendEndsWithExactlyOneReport : Obligations.SendEndsWithExactlyOneReport := by
  intro s t h hbusy hstep hidle
  refine ⟨fun hr => ?_, fun hr => ?_⟩
  · obtain ⟨v, hv, rfl⟩ := step_no_reset hstep hr
    have hmac := beforeSequencer_mac_busy hbusy
    rw [← hmac] at hbusy hv
    rcases exec_sequencer_ends (inv_beforeSequencer h) hbusy hv hidle with ⟨hdone, herr, -⟩ | ⟨hdone, herr, -⟩
    · exact .inl ⟨hdone, herr⟩
    · exact .inr ⟨hdone, herr⟩
  · rw [step_reset hstep hr]
    exact ⟨rfl, rfl⟩

end Sys2Proof.Machine
end

section
/-! PROOFS. Words written out from the tables of 30_encoding, 10_state R21 and 60_exceptions R194. -/

namespace Sys2Proof.Machine

/-- Settles O4: each operation by the rule of its format; the words that carry none evaluate to the name of what is
missing, a code of the table or the strobe. -/
theorem sampleWordsDecodeAsTheTablesSay : Obligations.SampleWordsDecodeAsTheTablesSay := by
  have hctl : Config.reference.jamByte ≠ Config.reference.escByte := by decide
  refine ⟨?jam, ?esc, ?data, ?checkCollision, ?sendEsc, ?unusedState, ?triesExpired, ?unusedEvent, ?bufWrite, ?noStrobe⟩
  case jam => exact decode_wire8_eq_op.mpr (classify_eq_jam.mpr rfl)
  case esc => exact decode_wire8_eq_op.mpr ((classify_eq_esc hctl).mpr rfl)
  case data => exact decode_wire8_eq_op.mpr (classify_eq_data.mpr (by decide))
  case checkCollision => exact decode_state_code _ .checkCollision
  case sendEsc => exact decode_state_code _ .sendEsc
  case unusedState => rfl
  case triesExpired => exact decode_event 6 (by decide)
  case unusedEvent => exact decode_event 7 (by decide)
  case bufWrite => exact decode_bufPort 0x41 (by decide)
  case noStrobe => rfl

end Sys2Proof.Machine
end
